-- ==== Sys2Proof/Word.lean ====
section
/-! DEFINITION. The words of the QDEC-DDS block (widths of `00_scope.md` R8 and `10_state.md` R21 to R34) and the
fixed sets of names the state and the instructions share: output pins, input sources, receiver stages. -/

namespace Sys2Proof

/-- `FREQ`, `SNAP_F`, `HOLD_F`: `FREQ_W` = 32 bits, read as two's complement (R21, D7). -/
abbrev FreqWord := BitVec 32

/-- `INC`, `SNAP_I`, `HOLD_I`: `INC_W` = 20 bits, unsigned (R22, D7). -/
abbrev IncWord := BitVec 20

/-- The tuning word `w`: `WORD_BITS` = 32 bits, unsigned (R7, R25). -/
abbrev TuningWord := BitVec 32

/-- The frame: `FRAME_BITS` = 40 bits (R7, R85). -/
abbrev FrameWord := BitVec 40

/-- The event code `EV`: `v`, `src[1:0]`, `lvl` (R81). -/
abbrev EventCode := BitVec 4

/-- The 12-bit code of a sequencer position, `ph[3:0]`, `k[5:0]`, `s[1:0]` (R83). -/
abbrev PositionCode := BitVec 12

/-- The four chip-side output pins (R33). -/
inductive Pin where
  /-- the chip's reset line -/
  | ddsReset
  /-- the chip's load-clock line -/
  | ddsWclk
  /-- the chip's serial data line -/
  | ddsData
  /-- the chip's frequency-update (latch) line -/
  | ddsFqud
  deriving DecidableEq, Repr, Inhabited

/-- The three asynchronous event sources (R212). -/
inductive Source where
  | channelA
  | channelB
  | button
  deriving DecidableEq, Repr, Inhabited

/-- `RX.stage` of the reference receiver (R150). -/
inductive Stage where
  | unknown
  | resetSeen
  | clkSeen
  | serial
  deriving DecidableEq, Repr, Inhabited

end Sys2Proof
end

