-- ==== Sys2Proof/Config.lean ====
section
/-! DEFINITION. The constants the source fixes (`00_scope.md` R7), the parameters this hardware takes (R8), and the
free values: the quantities the spec calls *any value* or unspecified, each an opaque constant applied to a plain
counter of State, so that nothing in Lean can evaluate it. -/

namespace Sys2Proof.Config

/-- `MIN_VAL`, lowest legal frequency in Hz (R7). -/
abbrev minVal : Int := 0

/-- `MAX_VAL`, highest legal frequency in Hz (R7). -/
abbrev maxVal : Int := 32000000

/-- `START_VAL`, reset value of `FREQ` in Hz (R7). -/
def startVal : FreqWord := 1000#32

/-- `MIN_INC`, lowest step size in Hz (R7). -/
abbrev minInc : Nat := 1

/-- `MAX_INC`, highest step size in Hz (R7). -/
abbrev maxInc : Nat := 1000000

/-- `START_INC`, reset value of `INC` in Hz (R7). -/
def startInc : IncWord := 1000#20

/-- `DIV_FACTOR`, the divisor of each button press (R7). -/
abbrev divFactor : Nat := 10

/-- `REF_CLK`, the chip's reference clock in Hz; a constant, not an operand of the codec (R7, D28). -/
abbrev refClk : Nat := 125000000

/-- `CTRL_BYTE`, the fifth frame byte (R7, R86). -/
abbrev ctrlByte : BitVec 8 := 0x00#8

/-- `FRAME_BITS`, the bits of one frame (R7). -/
abbrev frameBits : Nat := 40

/-- `EVENT_ORDER`, the order in which changes seen in one sample are applied (R8, D5). -/
abbrev eventOrder : List Source := [.channelA, .channelB, .button]

/-- `LATCH_RESET`, the reset value of both channel latches (R8, D10). -/
def latchReset : Bool := false

/-- `SNAP_RESET`, the reset value of both snapshot-valid flags: invalid (R8, D10, D26). -/
def snapReset : Bool := false

/-- `PIN_RESET`, the reset level of the four output pins (R8, D12). -/
def pinReset : Bool := false

/-- FREE VALUE: bytes 0 to 3 of `ENCODE` outside `[MIN_VAL, MAX_VAL]`, "a free 32-bit draw" (R114, U1); the argument
counts the draws made so far (assumption log 6). -/
opaque freeTuningWord : Nat → TuningWord

/-- FREE VALUE: `RX.shift` where it is unspecified (R154) and after `RX.bad` (R155); the arguments are the number of
resets so far and the place in `PINLOG` of the write that left it so (assumption log 7). -/
opaque rxShift : Nat → Nat → FrameWord

/-- FREE VALUE: `RX.stage` after `RX.bad` (R155, U3). -/
opaque rxStage : Nat → Nat → Stage

/-- FREE VALUE: `RX.cnt` after `RX.bad` (R155, U3). -/
opaque rxCount : Nat → Nat → Nat

/-- FREE VALUE: `RX.active` after `RX.bad` (R155, U3). -/
opaque rxActive : Nat → Nat → FrameWord

/-- FREE VALUE: `RX.active_valid` after `RX.bad` (R155, U3). -/
opaque rxActiveValid : Nat → Nat → Bool

/-- FREE VALUE: what the chip acts on where the spec does not say: no frame committed since its reset, a committed
frame with a non-zero control byte, or `RX.bad` (R154, R155, U2 to U4). -/
opaque chipUnstated : Nat → Nat → TuningWord

end Sys2Proof.Config
end

