-- ==== Sys2Proof/Syntax.lean ====
section
/-! DEFINITION. The 22 operations of `spec/opcode_table.json` (`30_encoding.md` R88) as one inductive, and the codes
that select them. -/

namespace Sys2Proof

/-- One constructor per row of the operation table (R88). The event operations have no operand: the level bit of the
event code selects between `_HIGH` and `_LOW` (R87 a). The three operations of phase 7 carry the bit index `k` of their
code, 0 to 39 (R84, R134). -/
inductive Instr where
  /-- `CHA_LOW`, R162 -/
  | chaLow
  /-- `CHA_HIGH`, R161 -/
  | chaHigh
  /-- `CHB_LOW`, R164 -/
  | chbLow
  /-- `CHB_HIGH`, R163 -/
  | chbHigh
  /-- `BTN_PRESS`, R181 -/
  | btnPress
  /-- `INIT_RST_HI`, R140 -/
  | initRstHi
  /-- `INIT_RST_LO`, R141 -/
  | initRstLo
  /-- `INIT_CLK_HI`, R142 -/
  | initClkHi
  /-- `INIT_CLK_LO`, R143 -/
  | initClkLo
  /-- `INIT_UPD_HI`, R144 -/
  | initUpdHi
  /-- `INIT_UPD_LO`, R145 -/
  | initUpdLo
  /-- `POLL_F`, R191 -/
  | pollF
  /-- `TX_DATA` at bit `k`, R131 -/
  | txData (k : Fin 40)
  /-- `TX_CLK_HI` at bit `k`, R132 -/
  | txClkHi (k : Fin 40)
  /-- `TX_CLK_LO` at bit `k`, R133 -/
  | txClkLo (k : Fin 40)
  /-- `TX_UPD_HI`, R135 -/
  | txUpdHi
  /-- `TX_UPD_LO`, R136 -/
  | txUpdLo
  /-- `DISP_F`, R194 -/
  | dispF
  /-- `POLL_I`, R195 -/
  | pollI
  /-- `DISP_I`, R196 -/
  | dispI
  /-- `ENCODE(f)`, R111, the codec exposed on its own (R114): `f` is the frequency in Hz, any integer -/
  | encode (f : Int)
  /-- `DECODE(w)`, R115 -/
  | decode (w : TuningWord)
  deriving DecidableEq, Repr

/-- The agent of an operation: the table's column of that name (R9, R10, R88). -/
inductive Agent where
  /-- performs the event operations the environment starts -/
  | eventUnit
  /-- performs the sequencer operations, one after another -/
  | sequencer
  /-- no agent: a pure function, not a step -/
  | pure
  deriving DecidableEq, Repr

/-- The agent that performs an operation (R9, R88). -/
def Instr.agent : Instr → Agent
  | .chaLow | .chaHigh | .chbLow | .chbHigh | .btnPress => .eventUnit
  | .initRstHi | .initRstLo | .initClkHi | .initClkLo | .initUpdHi | .initUpdLo => .sequencer
  | .pollF | .txData _ | .txClkHi _ | .txClkLo _ | .txUpdHi | .txUpdLo => .sequencer
  | .dispF | .pollI | .dispI => .sequencer
  | .encode _ | .decode _ => .pure

/-- The codes a decoder of this block decodes (R80): the event code, the sequencer position, the frame (whose row in
the table is `ENCODE`, by its result) and the 32-bit argument of `DECODE` (R88). -/
inductive Code where
  | event (ev : EventCode)
  | position (seq : PositionCode)
  | frame (bits : FrameWord)
  | word (w : TuningWord)
  deriving DecidableEq, Repr

end Sys2Proof
end

