-- ==== Sys2Proof/WellFormed.lean ====
section
/-! DEFINITION. Which terms of Instr are operations of the table: the operand lies in the range its row states. The
bit index of the phase 7 operations is in 0..39 by its type (`30_encoding.md` R84). -/

namespace Sys2Proof

/-- `f` is a legal argument of `ENCODE`: an integer with 0 ≤ f ≤ 32,000,000 (R111). -/
abbrev LegalFrequency (f : Int) : Prop := Config.minVal ≤ f ∧ f ≤ Config.maxVal

/-- An operation of the table: `ENCODE` with a legal frequency, every other operation as it stands. An `ENCODE`
outside the legal range has a meaning (R114) and no encoding, because its result is any value. -/
def Instr.wellFormed : Instr → Bool
  | .encode f => decide (LegalFrequency f)
  | .chaLow | .chaHigh | .chbLow | .chbHigh | .btnPress => true
  | .initRstHi | .initRstLo | .initClkHi | .initClkLo | .initUpdHi | .initUpdLo => true
  | .pollF | .txData _ | .txClkHi _ | .txClkLo _ | .txUpdHi | .txUpdLo => true
  | .dispF | .pollI | .dispI | .decode _ => true

end Sys2Proof
end

