-- ==== Sys2Proof/Machine/Arith.lean ====
section
/-! DEFINITION. The arithmetic of the block in one place (`00_scope.md` R13, R16) and the TuningWordCodec as pure
functions (`40_tuning_word_codec.md` R110 to R115). All of it is exact arithmetic on integers, brought to a width only
where a rule writes a register. -/

namespace Sys2Proof.Machine

/-- `sext_32(v)` (R13). -/
def sext32 (v : FreqWord) : Int := v.toInt

/-- `zext_20(v)` (R13). -/
def zext20 (v : IncWord) : Nat := v.toNat

/-- `wrap_32(v)`: the 32-bit two's complement word congruent to v modulo 2^32 (R13). -/
def wrap32 (v : Int) : FreqWord := BitVec.ofInt 32 v

/-- `trunc_20(v)` (R13); every rule that uses it writes a value below 2^20. -/
def trunc20 (v : Nat) : IncWord := BitVec.ofNat 20 v

/-- `clamp(v, lo, hi)`, signed comparison of mathematical integers (R13). -/
def clamp (v lo hi : Int) : Int :=
  if v < lo then lo else if v > hi then hi else v

/-- The clamp of a frequency into `[MIN_VAL, MAX_VAL]` (R191). -/
def clampFrequency (v : Int) : Int := clamp v Config.minVal Config.maxVal

/-- A step size divided by `DIV_FACTOR`, wrapped from below `MIN_INC` to `MAX_INC` (R181). -/
def nextIncrement (i : Nat) : Nat :=
  if i / Config.divFactor < Config.minInc then Config.maxInc else i / Config.divFactor

/-- The wrap alone, as the Controller loop repeats it (R195). -/
def wrapIncrement (i : Nat) : Nat :=
  if i < Config.minInc then Config.maxInc else i

/-- The exact product `p` = f × 2^32 of R111 (at most 57 bits for legal f, R112). -/
def codecProduct (f : Nat) : Nat := f * 2 ^ 32

/-- `w` = floor(f × 2^32 / 125,000,000) for a legal f (R111). -/
def tuningWord (f : Nat) : TuningWord := BitVec.ofNat 32 (codecProduct f / Config.refClk)

/-- `ENCODE(f).w` for any integer f: the formula inside the legal range, the free `draw` outside it (R111, R114). -/
def encodeWord (draw : TuningWord) (f : Int) : TuningWord :=
  if LegalFrequency f then tuningWord f.toNat else draw

/-- The frame of a tuning word: the control byte above the word (R85, R111). -/
def frameOf (w : TuningWord) : FrameWord := Config.ctrlByte ++ w

/-- The tuning word of a frame, bits 31 to 0 (R85). -/
def frameWord (t : FrameWord) : TuningWord := t.extractLsb' 0 32

/-- The control byte of a frame, bits 39 to 32 (R85). -/
def frameCtrl (t : FrameWord) : BitVec 8 := t.extractLsb' 32 8

/-- `byte(j)` of a frame, bits 8j+7 to 8j; j is in 0..4 (R61). -/
def frameByte (t : FrameWord) (j : Nat) : BitVec 8 := t.extractLsb' (8 * j) 8

/-- The five output bytes of the codec in transmission order (R64, R113). -/
def frameBytes (t : FrameWord) : List (BitVec 8) :=
  [frameByte t 0, frameByte t 1, frameByte t 2, frameByte t 3, frameByte t 4]

/-- `DECODE(w)` = w × 125,000,000 / 2^32, an exact rational number of Hz (R115). -/
def decodeHz (w : TuningWord) : Rat := mkRat (w.toNat * Config.refClk) (2 ^ 32)

/-- The least integer not below `DECODE(w)`: the frequency that `w` was encoded from, if it was (R116). -/
def frequencyOf (w : TuningWord) : Nat := (w.toNat * Config.refClk + (2 ^ 32 - 1)) / 2 ^ 32

end Sys2Proof.Machine
end

