-- ==== Sys2Proof/Decode.lean ====
section
/-! DEFINITION. Decoding (`30_encoding.md` R80 to R90): a total function from a code to the operation it selects, to
the idle answer, or to a rejection by name; and the encoder, written from the same tables. -/

namespace Sys2Proof

/-- What a code selects. -/
inductive Decoded where
  /-- an operation of the table -/
  | op (i : Instr)
  /-- an event code with `v` = 0: no operation, no state change (R82) -/
  | idle
  /-- one of the event codes `0b1101`, `0b1110`, `0b1111` (R82) -/
  | reservedEvent
  /-- a `SEQ` value outside the legal set (R84) -/
  | illegalPosition
  /-- a 40-bit value that is not the result of `ENCODE` for any legal frequency (R85, R86, R111) -/
  | notAFrame
  deriving DecidableEq, Repr

/-- The operation of an event code (R81, R82). -/
def decodeEvent (ev : EventCode) : Decoded :=
  if ev.getLsbD 3 = false then .idle
  else match ev.toNat with
    | 0b1000 => .op .chaLow
    | 0b1001 => .op .chaHigh
    | 0b1010 => .op .chbLow
    | 0b1011 => .op .chbHigh
    | 0b1100 => .op .btnPress
    | _ => .reservedEvent

/-- `ph[3:0]`, bits 11 to 8 of a position code (R83). -/
def positionPhase (c : PositionCode) : BitVec 4 := c.extractLsb' 8 4

/-- `k[5:0]`, bits 7 to 2 of a position code (R83). -/
def positionBit (c : PositionCode) : BitVec 6 := c.extractLsb' 2 6

/-- `s[1:0]`, bits 1 to 0 of a position code (R83). -/
def positionStep (c : PositionCode) : BitVec 2 := c.extractLsb' 0 2

/-- The position code made of its fields (R83). -/
def positionCode (ph : BitVec 4) (k : BitVec 6) (s : BitVec 2) : PositionCode := ph ++ k ++ s

/-- The operation of a phase other than 7; 13 to 15 are reserved (R83). -/
def phaseOperation (ph : Nat) : Decoded :=
  match ph with
  | 0 => .op .initRstHi
  | 1 => .op .initRstLo
  | 2 => .op .initClkHi
  | 3 => .op .initClkLo
  | 4 => .op .initUpdHi
  | 5 => .op .initUpdLo
  | 6 => .op .pollF
  | 8 => .op .txUpdHi
  | 9 => .op .txUpdLo
  | 10 => .op .dispF
  | 11 => .op .pollI
  | 12 => .op .dispI
  | _ => .illegalPosition

/-- The operation of phase 7 (`TX_BIT`) at bit `k` and step `s` (R83, R84). -/
def txBitOperation (k s : Nat) : Decoded :=
  if h : k < 40 then
    match s with
    | 0 => .op (.txData ⟨k, h⟩)
    | 1 => .op (.txClkHi ⟨k, h⟩)
    | 2 => .op (.txClkLo ⟨k, h⟩)
    | _ => .illegalPosition
  else .illegalPosition

/-- The operation of a sequencer position (R83, R84): outside phase 7, `k` and `s` are 0. -/
def decodePosition (c : PositionCode) : Decoded :=
  if positionPhase c = 7#4 then txBitOperation (positionBit c).toNat (positionStep c).toNat
  else if positionBit c = 0#6 ∧ positionStep c = 0#2 then phaseOperation (positionPhase c).toNat
  else .illegalPosition

/-- The `ENCODE` whose result a frame is: the control byte is zero and the tuning word is that of a legal frequency,
which the word determines (R85, R86, R111, R116; assumption log 8). -/
def decodeFrame (t : FrameWord) : Decoded :=
  let w := Machine.frameWord t
  let f := Machine.frequencyOf w
  if Machine.frameCtrl t = Config.ctrlByte ∧ LegalFrequency (f : Int) ∧ Machine.tuningWord f = w then
    .op (.encode (f : Int))
  else .notAFrame

/-- The decoder: total on every code of the four formats (R80, R88 to R90). -/
def decode : Code → Decoded
  | .event ev => decodeEvent ev
  | .position c => decodePosition c
  | .frame t => decodeFrame t
  | .word w => .op (.decode w)

/-- The position code of phase `ph` with `k` = 0 and `s` = 0 (R88). -/
def phaseCode (ph : BitVec 4) : Code := .position (positionCode ph 0#6 0#2)

/-- The position code of phase 7 at bit `k` and step `s` (R88). -/
def txBitCode (k : Fin 40) (s : BitVec 2) : Code := .position (positionCode 7#4 (BitVec.ofNat 6 k.val) s)

/-- The encoder: the code of each operation as the table R88 gives it. `ENCODE` is encoded by its result, which the
spec gives for a legal frequency only. DESIGN CHOICE (assumption log 17): outside the legal range, where R114 makes that
result any value, `encode` is total by a filler, the frame of the formula on `f.toNat` (for a negative `f` the frame of
0); it is no encoding of the operation, which is not well-formed, and nothing rests on it. -/
def encode : Instr → Code
  | .chaLow => .event 0b1000#4
  | .chaHigh => .event 0b1001#4
  | .chbLow => .event 0b1010#4
  | .chbHigh => .event 0b1011#4
  | .btnPress => .event 0b1100#4
  | .initRstHi => phaseCode 0#4
  | .initRstLo => phaseCode 1#4
  | .initClkHi => phaseCode 2#4
  | .initClkLo => phaseCode 3#4
  | .initUpdHi => phaseCode 4#4
  | .initUpdLo => phaseCode 5#4
  | .pollF => phaseCode 6#4
  | .txData k => txBitCode k 0#2
  | .txClkHi k => txBitCode k 1#2
  | .txClkLo k => txBitCode k 2#2
  | .txUpdHi => phaseCode 8#4
  | .txUpdLo => phaseCode 9#4
  | .dispF => phaseCode 10#4
  | .pollI => phaseCode 11#4
  | .dispI => phaseCode 12#4
  | .encode f => .frame (Machine.frameOf (Machine.tuningWord f.toNat))
  | .decode w => .word w

/-- How many bits the table gives a code, in whole bytes: event 4, position 12, word 32, frame 40 (R90). -/
def codeBits : Code → Nat
  | .event _ => 8
  | .position _ => 16
  | .word _ => 32
  | .frame _ => 40

/-- The bits of a code as one number, bit 0 the least significant. -/
def codeNumber : Code → Nat
  | .event ev => ev.toNat
  | .position c => c.toNat
  | .word w => w.toNat
  | .frame t => t.toNat

/-- The code whose table row has `nbits` bits and whose bits are `w`: the width tells the format, since the three
formats and the word have one fixed width each (R80, R90). None where `w` does not fit the format. -/
def codeOfTable (nbits w : Nat) : Option Code :=
  if nbits ≤ 8 then (if w < 2 ^ 4 then some (.event (BitVec.ofNat 4 w)) else none)
  else if nbits ≤ 16 then (if w < 2 ^ 12 then some (.position (BitVec.ofNat 12 w)) else none)
  else if nbits ≤ 32 then (if w < 2 ^ 32 then some (.word (BitVec.ofNat 32 w)) else none)
  else if w < 2 ^ 40 then some (.frame (BitVec.ofNat 40 w)) else none

/-- The instruction the decoder reads from an operation of the table whose bits are `w`. -/
def decodeTableWord (nbits w : Nat) : Option Instr :=
  match codeOfTable nbits w with
  | none => none
  | some c =>
    match decode c with
    | .op i => some i
    | _ => none

end Sys2Proof
end

