-- ==== Sys2Proof/Machine/State.lean ====
section
/-! DEFINITION. The architectural state of the QDEC-DDS block as plain data (`10_state.md`), the reference receiver
(`41_serial_transmitter.md` R150), the environment's stimulus, the reasons a step can stop, and the state after reset
(R48). The block has no addressable memory (`20_memory.md` R60), so State has none. -/

namespace Sys2Proof.Machine

/-- The sequencer position `SEQ` = `(ph, k, s)`, 12 bits (R31). -/
structure SeqPos where
  ph : BitVec 4
  k : BitVec 6
  s : BitVec 2
  deriving DecidableEq, Repr

/-- The levels of the four output pin registers; true is 1 (R33). -/
structure Pins where
  ddsReset : Bool
  ddsWclk : Bool
  ddsData : Bool
  ddsFqud : Bool
  deriving DecidableEq, Repr

/-- One entry `(pin, level)` of `PINLOG` (R43). -/
structure PinWrite where
  pin : Pin
  level : Bool
  deriving DecidableEq, Repr

/-- One output event of `DISPLOG` (R44, R225, R226). -/
inductive DispEvent where
  /-- `DISP_FREQ(v)` -/
  | freq (v : FreqWord)
  /-- `DISP_STEP(v)` -/
  | step (v : IncWord)
  deriving DecidableEq, Repr

/-- The reference receiver's registers (R150). They belong to the chip (R20); they react to the block's pin writes and
have no step of their own (R10). -/
structure Receiver where
  stage : Stage
  shift : FrameWord
  cnt : Nat
  active : FrameWord
  activeValid : Bool
  bad : Bool
  deriving DecidableEq, Repr

/-- The levels of the input pins `ENC_A`, `ENC_B`, `BTN_N` (R40). -/
structure InputPins where
  encA : Bool
  encB : Bool
  btnN : Bool
  deriving DecidableEq, Repr

/-- MODEL'S OWN (assumption log 1): one move of the environment (`00_scope.md` R9, R10; `70_reset_and_hazards.md` R266):
who acts next, and with what. -/
inductive Move where
  /-- a 4-bit code on the event port `EV` (R41, R81) -/
  | event (ev : EventCode)
  /-- no event now: the sequencer performs its next operation (the token `s` of R91) -/
  | turn
  /-- the front-end samples the input pins at these levels (R41) -/
  | sample (levels : InputPins)
  /-- `rst` is asserted, with the input pins at these levels at the last sample under reset (R34, R240) -/
  | rst (levels : InputPins)
  /-- the codec, exposed on its own (R114), is asked for the `ENCODE` whose result is this frame -/
  | frame (bits : FrameWord)
  /-- the function `DECODE` is asked for the frequency of this tuning word (R115) -/
  | word (w : TuningWord)
  deriving DecidableEq, Repr

/-- The last result of a codec function evaluated on its own. It is the model's own record (assumption log 8): `ENCODE`
and `DECODE` are pure functions and change no state of the block (R110, R114, R115). -/
inductive CodecResult where
  /-- neither has been evaluated on its own -/
  | none
  /-- `ENCODE` answered this word and this frame (R111) -/
  | encoded (w : TuningWord) (frame : FrameWord)
  /-- `DECODE` answered this rational number of Hz (R115) -/
  | decoded (hz : Rat)
  deriving DecidableEq, Repr

/-- Why a step stops with a fault. -/
inductive Fault where
  /-- Raised by `step` when `SEQ` is outside the legal set: "it is not a state of the block" (R84, U6). Safe: no such
  state is reachable from reset. -/
  | illegalPosition
  deriving DecidableEq, Repr

/-- Why a step is refused: the stimulus is ill-formed and has no meaning. -/
inductive Refusal where
  /-- An operation with no meaning in `exec` yet; no arm uses it. Safe: nothing can be proved of it. -/
  | notModelled (mnemonic : String)
  /-- Raised by `step` on the event codes `0b1101`, `0b1110`, `0b1111`: "a stimulus that contains one is ill-formed"
  (R82, U5). Safe: the environment never offers one (R266). -/
  | reservedEvent
  /-- Raised by `step` when the codec is asked for a 40-bit value that is no result of `ENCODE`: a non-zero control byte
  ("never sent", R86) or a word no legal frequency has (R111). Safe: the block forms no such frame. -/
  | notAFrame
  deriving DecidableEq, Repr

/-- Everything the spec gives the machine (R20), the receiver (R150), and the model's own fields. -/
structure State where
  /-- `FREQ`, two's complement Hz (R21) -/
  freq : FreqWord
  /-- `INC`, unsigned Hz per step (R22) -/
  inc : IncWord
  /-- `LATCH_A`: channel A's line was last observed high (R23) -/
  latchA : Bool
  /-- `LATCH_B`: channel B's line was last observed high (R24) -/
  latchB : Bool
  /-- `SNAP_F` (R26) -/
  snapF : FreqWord
  /-- `SNAP_F_VALID` (R26) -/
  snapFValid : Bool
  /-- `SNAP_I` (R27) -/
  snapI : IncWord
  /-- `SNAP_I_VALID` (R27) -/
  snapIValid : Bool
  /-- `HOLD_F` (R28) -/
  holdF : FreqWord
  /-- `HOLD_I` (R29) -/
  holdI : IncWord
  /-- `TXBUF`, the frame in transmission (R30) -/
  txbuf : FrameWord
  /-- `SEQ`, the sequencer position (R31) -/
  seq : SeqPos
  /-- the four output pin registers (R33) -/
  pins : Pins
  /-- `A_PREV` (R34) -/
  aPrev : Bool
  /-- `B_PREV` (R34) -/
  bPrev : Bool
  /-- `BTN_PREV` (R34) -/
  btnPrev : Bool
  /-- `PINLOG`, first write first (R43) -/
  pinlog : List PinWrite
  /-- `DISPLOG`, first event first (R44) -/
  displog : List DispEvent
  /-- the reference receiver (R150) -/
  rx : Receiver
  /-- MODEL'S OWN: the environment's moves to come; after the last one the sequencer goes on alone -/
  stim : List Move
  /-- MODEL'S OWN: the last result of a codec function evaluated on its own -/
  codec : CodecResult
  /-- MODEL'S OWN: how many times `rst` was asserted in this run; indexes the receiver's free values -/
  runs : Nat
  /-- MODEL'S OWN: how many free tuning words were drawn (R114) -/
  draws : Nat
  deriving DecidableEq, Repr

/-- The receiver before anything happened (R150). The spec leaves `RX.shift` and `RX.active` open here: 0, marked
DESIGN CHOICE in assumption log 4. -/
def Receiver.initial : Receiver :=
  { stage := .unknown, shift := 0#40, cnt := 0, active := 0#40, activeValid := false, bad := false }

/-- All four output pins at the reset level (R33, R48). -/
def Pins.initial : Pins :=
  { ddsReset := Config.pinReset, ddsWclk := Config.pinReset, ddsData := Config.pinReset, ddsFqud := Config.pinReset }

/-- The input pins at rest: both encoder lines low, the button not pressed. The spec gives the sample registers no
constant reset value (R34); this is the level of its test vectors, marked DESIGN CHOICE in assumption log 3. -/
def InputPins.atRest : InputPins := { encA := false, encB := false, btnN := true }

/-- The machine right after reset (R48). -/
def State.reset : State :=
  { freq := Config.startVal
    inc := Config.startInc
    latchA := Config.latchReset
    latchB := Config.latchReset
    snapF := 0#32
    snapFValid := Config.snapReset
    snapI := 0#20
    snapIValid := Config.snapReset
    holdF := 0#32
    holdI := 0#20
    txbuf := 0#40
    seq := { ph := 0#4, k := 0#6, s := 0#2 }
    pins := Pins.initial
    aPrev := InputPins.atRest.encA
    bPrev := InputPins.atRest.encB
    btnPrev := InputPins.atRest.btnN
    pinlog := []
    displog := []
    rx := Receiver.initial
    stim := []
    codec := .none
    runs := 0
    draws := 0 }

end Sys2Proof.Machine
end

