-- ==== Sys2Proof/Machine/Receiver.lean ====
section
/-! DEFINITION. The reference receiver (`41_serial_transmitter.md` R150 to R155): what the chip does with one pin write,
its state as a function of `PINLOG`, and what it acts on. It is what the source says of the chip, not its data sheet. -/

namespace Sys2Proof.Machine

/-- The level of one output pin. -/
def Pins.get (p : Pins) : Pin → Bool
  | .ddsReset => p.ddsReset
  | .ddsWclk => p.ddsWclk
  | .ddsData => p.ddsData
  | .ddsFqud => p.ddsFqud

/-- The output pins after one of them is written. -/
def Pins.set (p : Pins) (pin : Pin) (level : Bool) : Pins :=
  match pin with
  | .ddsReset => { p with ddsReset := level }
  | .ddsWclk => { p with ddsWclk := level }
  | .ddsData => { p with ddsData := level }
  | .ddsFqud => { p with ddsFqud := level }

/-- The receiver once `RX.bad` is true: the flag is sticky and nothing more is said of it, so every register is a free
value (R155, U3). -/
def Receiver.lost (run place : Nat) : Receiver :=
  { stage := Config.rxStage run place
    shift := Config.rxShift run place
    cnt := Config.rxCount run place
    active := Config.rxActive run place
    activeValid := Config.rxActiveValid run place
    bad := true }

/-- A rising write of `DDS_RESET` (R154); `RX.shift` is unspecified after it. -/
def Receiver.onReset (r : Receiver) (run place : Nat) : Receiver :=
  { r with stage := .resetSeen, activeValid := false, cnt := 0, shift := Config.rxShift run place }

/-- A rising write of `DDS_WCLK` with `DDS_DATA` at `data` (R152). -/
def Receiver.onClock (r : Receiver) (run place : Nat) (data : Bool) : Receiver :=
  match r.stage with
  | .serial => { r with shift := BitVec.ofBool data ++ r.shift.extractLsb' 1 39, cnt := r.cnt + 1 }
  | .resetSeen => { r with stage := .clkSeen }
  | .unknown | .clkSeen => Receiver.lost run place

/-- A rising write of `DDS_FQUD` (R153). -/
def Receiver.onUpdate (r : Receiver) (run place : Nat) : Receiver :=
  match r.stage with
  | .serial =>
    if r.cnt = Config.frameBits then { r with active := r.shift, activeValid := true, cnt := 0 }
    else Receiver.lost run place
  | .clkSeen => { r with stage := .serial, cnt := 0 }
  | .unknown | .resetSeen => Receiver.lost run place

/-- The receiver's reaction to the write `w`, made with the pins at `before`, as entry number `place` of `PINLOG`: only
a rising write of `DDS_RESET`, `DDS_WCLK` or `DDS_FQUD` acts (R151). -/
def Receiver.onWrite (r : Receiver) (run place : Nat) (before : Pins) (w : PinWrite) : Receiver :=
  if r.bad then Receiver.lost run place
  else if w.level && !before.get w.pin then
    match w.pin with
    | .ddsReset => r.onReset run place
    | .ddsWclk => r.onClock run place before.ddsData
    | .ddsData => r
    | .ddsFqud => r.onUpdate run place
  else r

/-- The pins and the receiver after a list of pin writes, the first of which is entry number `place` of `PINLOG`. -/
def Receiver.replayFrom (run : Nat) : Nat → Pins → Receiver → List PinWrite → Pins × Receiver
  | _, p, r, [] => (p, r)
  | place, p, r, w :: ws =>
    Receiver.replayFrom run (place + 1) (p.set w.pin w.level) (r.onWrite run place p w) ws

/-- The receiver as a function of `PINLOG`: start from the initial state and apply each entry in order (R151). -/
def Receiver.replay (run : Nat) (log : List PinWrite) : Receiver :=
  (Receiver.replayFrom run 0 Pins.initial Receiver.initial log).2

/-- The levels of the pins as a function of `PINLOG`: the last level written to each, the reset level before. -/
def Pins.ofLog (run : Nat) (log : List PinWrite) : Pins :=
  (Receiver.replayFrom run 0 Pins.initial Receiver.initial log).1

/-- The tuning word the chip acts on: that of the committed frame, if one was committed since the chip's reset, its
control byte is zero and the protocol was kept; any value otherwise (R154, R155, U2 to U4; assumption log 11). -/
def State.chipWord (s : State) : TuningWord :=
  if s.rx.bad = false ∧ s.rx.activeValid = true ∧ frameCtrl s.rx.active = Config.ctrlByte then frameWord s.rx.active
  else Config.chipUnstated s.runs s.pinlog.length

end Sys2Proof.Machine
end

