-- ==== Sys2Proof/Machine/Operands.lean ====
section
/-! DEFINITION. How each operation gets its operands (`30_encoding.md` R87): registers read by name and extended as the
rules say, the one indexed read `TXBUF[k]` (`20_memory.md` R61), and the fields of the sequencer position. -/

namespace Sys2Proof.Machine

/-- `sext_32(FREQ)` (R21). -/
def State.freqValue (s : State) : Int := sext32 s.freq

/-- `zext_20(INC)`, the step size read at the time of the operation (R22, R87 a). -/
def State.incValue (s : State) : Nat := zext20 s.inc

/-- `TXBUF[k]`, the k-th bit transmitted (R30, R66). -/
def State.frameBit (s : State) (k : Fin 40) : Bool := s.txbuf.getLsbD k.val

/-- The value `FREQ` gets from a step of +`INC` (R161): the sum brought back to 32 bits. -/
def State.freqUp (s : State) : FreqWord := wrap32 (s.freqValue + (s.incValue : Int))

/-- The value `FREQ` gets from a step of −`INC` (R163). -/
def State.freqDown (s : State) : FreqWord := wrap32 (s.freqValue - (s.incValue : Int))

/-- The position `(ph, 0, 0)`. -/
def SeqPos.phase (ph : BitVec 4) : SeqPos := { ph := ph, k := 0#6, s := 0#2 }

/-- The position `(7, k, s)`. -/
def SeqPos.txBit (k : Nat) (s : BitVec 2) : SeqPos := { ph := 7#4, k := BitVec.ofNat 6 k, s := s }

/-- The position after `TX_CLK_LO` at bit `k`: the next bit, or `TX_UPD_HI` after bit 39 (R133). -/
def SeqPos.afterBit (k : Fin 40) : SeqPos :=
  if k.val = 39 then SeqPos.phase 8#4 else SeqPos.txBit (k.val + 1) 0#2

/-- The 12-bit code of a position (R83). -/
def SeqPos.code (q : SeqPos) : PositionCode := positionCode q.ph q.k q.s

/-- The position of a 12-bit code (R83). -/
def SeqPos.ofCode (c : PositionCode) : SeqPos :=
  { ph := positionPhase c, k := positionBit c, s := positionStep c }

/-- The legal values of `SEQ` (R84): `k` in 0..39 and `s` in 0..2 in phase 7, both 0 in every other phase, and no phase
above 12. -/
def SeqPos.legal (q : SeqPos) : Bool :=
  if q.ph = 7#4 then decide (q.k.toNat < 40) && decide (q.s.toNat < 3)
  else decide (q.ph.toNat < 13) && decide (q.k = 0#6) && decide (q.s = 0#2)

/-- The levels the front-end saw at the previous sample (R34). -/
def State.previousLevels (s : State) : InputPins := { encA := s.aPrev, encB := s.bPrev, btnN := s.btnPrev }

/-- `DISP_F_STB` and `DISP_F_VAL` = v[24:0] for the events emitted in one step: a value where the strobe is 1, none
where it is 0 (R40, R42, R225). -/
def displayFreqPort : List DispEvent → Option (BitVec 25)
  | [] => none
  | .freq v :: _ => some (v.extractLsb' 0 25)
  | .step _ :: es => displayFreqPort es

/-- `DISP_I_STB` and `DISP_I_VAL` for the events emitted in one step (R40, R42, R226). -/
def displayStepPort : List DispEvent → Option (BitVec 20)
  | [] => none
  | .step v :: _ => some v
  | .freq _ :: es => displayStepPort es

end Sys2Proof.Machine
end

