-- ==== Sys2Proof/Machine/Flags.lean ====
section
/-! DEFINITION. The one-bit state the operations test or write (`10_state.md` R32): the channel latches, and the two
"changed" tests of the Controller loop over the snapshots and their valid flags. The block has no condition codes and no
status register; no operation writes a flag as a side effect of something else. -/

namespace Sys2Proof.Machine

/-- `LATCH_A <- v` (R23). -/
def State.setLatchA (s : State) (v : Bool) : State := { s with latchA := v }

/-- `LATCH_B <- v` (R24). -/
def State.setLatchB (s : State) (v : Bool) : State := { s with latchB := v }

/-- `POLL_F`'s test: the frequency is unchanged when the snapshot is valid and equals `FREQ`, compared unclamped; an
invalid snapshot compares unequal to every `FREQ` (R26, R191). -/
def State.freqUnchanged (s : State) : Bool :=
  s.snapFValid && decide (sext32 s.freq = sext32 s.snapF)

/-- `POLL_I`'s test (R27, R195). -/
def State.incUnchanged (s : State) : Bool :=
  s.snapIValid && decide (zext20 s.inc = zext20 s.snapI)

end Sys2Proof.Machine
end

