-- ==== Sys2Proof/Machine/Ops.lean ====
section
/-! DEFINITION. The named operations over the registers that the meanings share: writing an output pin, setting the
sequencer position, emitting an output event, the environment's next move, and reset. The block has no exception to
take and none to return from (`60_exceptions.md` R210, R217): an event operation saves nothing and restores nothing. -/

namespace Sys2Proof.Machine

/-- `P <- v` for an output pin: the pin register is written, `(P, v)` is appended to `PINLOG`, also when the level stays
as it is (R13, R43), and the reference receiver reacts (R10, R151). -/
def State.writePin (s : State) (pin : Pin) (level : Bool) : State :=
  { s with
    pins := s.pins.set pin level
    pinlog := s.pinlog ++ [{ pin := pin, level := level }]
    rx := s.rx.onWrite s.runs s.pinlog.length s.pins { pin := pin, level := level } }

/-- `SEQ <- (ph, k, s)` (R13, R31). -/
def State.goto (s : State) (q : SeqPos) : State := { s with seq := q }

/-- `emit E(v)`: the output event is appended to `DISPLOG` (R13, R44). -/
def State.emit (s : State) (e : DispEvent) : State := { s with displog := s.displog ++ [e] }

/-- One operation after another: the second is performed on the state the first leaves, if the first does not stop. -/
def andThen (first : Host.Outcome State Fault Refusal) (second : State → Host.Outcome State Fault Refusal) :
    Host.Outcome State Fault Refusal :=
  match first with
  | .next t => second t
  | .fault r => .fault r
  | .refused r => .refused r

/-- The next move: the first of the stimulus, and after its end the sequencer's turn, which nothing can hold up
(R199). -/
def State.nextMove (s : State) : Move := s.stim.headD .turn

/-- The state with its next move taken from the stimulus. -/
def State.pop (s : State) : State := { s with stim := s.stim.tail }

/-- The state in which the environment's next move is `m`. -/
def State.offer (s : State) (m : Move) : State := { s with stim := m :: s.stim }

/-- The code the next step decodes, if its move selects an operation by a code: the event port, the sequencer position,
or the codec's port. -/
def State.fetch (s : State) : Option Code :=
  match s.nextMove with
  | .event ev => some (.event ev)
  | .turn => some (.position s.seq.code)
  | .frame t => some (.frame t)
  | .word w => some (.word w)
  | .sample _ => none
  | .rst _ => none

/-- `rst` asserted: every state element takes its reset value, whatever was in progress; the sample registers follow the
pins (R34, R48, R240). The environment's moves to come and the model's own counters are no element of the block
(assumption log 2). -/
def State.resetBlock (s : State) (levels : InputPins) : State :=
  { State.reset with
    aPrev := levels.encA
    bPrev := levels.encB
    btnPrev := levels.btnN
    stim := s.stim
    codec := s.codec
    runs := s.runs + 1
    draws := s.draws }

/-- The state that holds the code `c` where the next step finds it: an event or codec code as the next move, a
sequencer position in `SEQ` with the sequencer's turn next. -/
def State.withCode (s : State) : Code → State
  | .event ev => s.offer (.event ev)
  | .position c => (s.goto (SeqPos.ofCode c)).offer .turn
  | .frame t => s.offer (.frame t)
  | .word w => s.offer (.word w)

end Sys2Proof.Machine
end

