-- ==== Sys2Proof/Machine/CodecPort.lean ====
section
/-! DEFINITION. `ENCODE` and `DECODE` evaluated on their own (`40_tuning_word_codec.md` R111, R114, R115). They are pure
functions: no state of the block changes; the model records the answer in its own field `codec`. -/

namespace Sys2Proof.Machine

/-- `ENCODE(f)` (R111); outside the legal range bytes 0 to 3 are a free draw and the control byte is still zero
(R114). -/
def execEncode (f : Int) (s : State) : Host.Outcome State Fault Refusal :=
  let w := encodeWord (Config.freeTuningWord s.draws) f
  .next { s with
    codec := .encoded w (frameOf w)
    draws := if LegalFrequency f then s.draws else s.draws + 1 }

/-- `DECODE(w)` (R115). -/
def execDecode (w : TuningWord) (s : State) : Host.Outcome State Fault Refusal :=
  .next { s with codec := .decoded (decodeHz w) }

end Sys2Proof.Machine
end

