-- ==== Sys2Proof/Machine/Controller.lean ====
section
/-! DEFINITION. The Controller loop (`44_controller.md` R190 to R201): observe the frequency, show it; observe the step
size, show it. -/

namespace Sys2Proof.Machine

/-- `POLL_F` where the frequency changed (R191): the clamp is written back to `FREQ` and captured in `HOLD_F`, its frame
goes to `TXBUF`, and the transmission starts at bit 0. The codec's argument is always legal here (R110), so the draw it
is offered is never used. -/
def State.captureFreq (s : State) : State :=
  let c := clampFrequency s.freqValue
  { s with
    freq := wrap32 c
    holdF := wrap32 c
    txbuf := frameOf (encodeWord (Config.freeTuningWord s.draws) c) }.goto (.txBit 0 0#2)

/-- `POLL_F` (R191). -/
def execPollF (s : State) : Host.Outcome State Fault Refusal :=
  .next (if s.freqUnchanged then s.goto (.phase 11#4) else s.captureFreq)

/-- `DISP_F` (R194): the captured value is shown and becomes the snapshot, not a fresh read of `FREQ`. -/
def execDispF (s : State) : Host.Outcome State Fault Refusal :=
  .next ({ s.emit (.freq s.holdF) with snapF := s.holdF, snapFValid := true }.goto (.phase 11#4))

/-- `POLL_I` where the step size changed (R195): the redundant wrap is written back, and the wrapped value captured. -/
def State.captureInc (s : State) : State :=
  { s with
    inc := trunc20 (wrapIncrement s.incValue)
    holdI := trunc20 (wrapIncrement s.incValue) }.goto (.phase 12#4)

/-- `POLL_I` (R195). -/
def execPollI (s : State) : Host.Outcome State Fault Refusal :=
  .next (if s.incUnchanged then s.goto (.phase 6#4) else s.captureInc)

/-- `DISP_I` (R196). -/
def execDispI (s : State) : Host.Outcome State Fault Refusal :=
  .next ({ s.emit (.step s.holdI) with snapI := s.holdI, snapIValid := true }.goto (.phase 6#4))

end Sys2Proof.Machine
end

