-- ==== Sys2Proof/Machine/Encoder.lean ====
section
/-! DEFINITION. EncoderStateMachine, the quadrature decoder (`42_quadrature_decoder.md` R160 to R170): a channel's rise
steps `FREQ` by `INC` where the other channel's latch is low; no operation here clamps. -/

namespace Sys2Proof.Machine

/-- `CHA_HIGH` (R161): +`INC` where `LATCH_B` is 0; `LATCH_A` is set regardless. -/
def execChaHigh (s : State) : Host.Outcome State Fault Refusal :=
  .next ({ s with freq := if s.latchB then s.freq else s.freqUp }.setLatchA true)

/-- `CHA_LOW` (R162): only `LATCH_A` is cleared. -/
def execChaLow (s : State) : Host.Outcome State Fault Refusal :=
  .next (s.setLatchA false)

/-- `CHB_HIGH` (R163): −`INC` where `LATCH_A` is 0; `LATCH_B` is set regardless. -/
def execChbHigh (s : State) : Host.Outcome State Fault Refusal :=
  .next ({ s with freq := if s.latchA then s.freq else s.freqDown }.setLatchB true)

/-- `CHB_LOW` (R164): only `LATCH_B` is cleared. -/
def execChbLow (s : State) : Host.Outcome State Fault Refusal :=
  .next (s.setLatchB false)

end Sys2Proof.Machine
end

