-- ==== Sys2Proof/Machine/Startup.lean ====
section
/-! DEFINITION. The start-up sequence of the SerialBitstreamTransmitter (`41_serial_transmitter.md` R140 to R147): one
pin write per operation, in the fixed order of phases 0 to 5. -/

namespace Sys2Proof.Machine

/-- `INIT_RST_HI` (R140). -/
def execInitRstHi (s : State) : Host.Outcome State Fault Refusal :=
  .next ((s.writePin .ddsReset true).goto (.phase 1#4))

/-- `INIT_RST_LO` (R141). -/
def execInitRstLo (s : State) : Host.Outcome State Fault Refusal :=
  .next ((s.writePin .ddsReset false).goto (.phase 2#4))

/-- `INIT_CLK_HI` (R142). -/
def execInitClkHi (s : State) : Host.Outcome State Fault Refusal :=
  .next ((s.writePin .ddsWclk true).goto (.phase 3#4))

/-- `INIT_CLK_LO` (R143). -/
def execInitClkLo (s : State) : Host.Outcome State Fault Refusal :=
  .next ((s.writePin .ddsWclk false).goto (.phase 4#4))

/-- `INIT_UPD_HI` (R144). -/
def execInitUpdHi (s : State) : Host.Outcome State Fault Refusal :=
  .next ((s.writePin .ddsFqud true).goto (.phase 5#4))

/-- `INIT_UPD_LO` (R145). -/
def execInitUpdLo (s : State) : Host.Outcome State Fault Refusal :=
  .next ((s.writePin .ddsFqud false).goto (.phase 6#4))

end Sys2Proof.Machine
end

