-- ==== Sys2Proof/Machine/StepSize.lean ====
section
/-! DEFINITION. StepSizeController (`43_step_size.md` R180 to R184): no debounce, one division per press. -/

namespace Sys2Proof.Machine

/-- `BTN_PRESS` (R181): `INC` divided by ten, wrapped from below 1 to 1,000,000, in one indivisible operation. -/
def execBtnPress (s : State) : Host.Outcome State Fault Refusal :=
  .next { s with inc := trunc20 (nextIncrement s.incValue) }

end Sys2Proof.Machine
end

