-- ==== Sys2Proof/Machine/Transmitter.lean ====
section
/-! DEFINITION. Frame transmission of the SerialBitstreamTransmitter (`41_serial_transmitter.md` R130 to R139): for each
bit the data line, then one load-clock pulse; after the fortieth bit one latch pulse. -/

namespace Sys2Proof.Machine

/-- `TX_DATA` at bit `k` (R131): the write is made and logged also where the level stays as it is. -/
def execTxData (k : Fin 40) (s : State) : Host.Outcome State Fault Refusal :=
  .next ((s.writePin .ddsData (s.frameBit k)).goto (.txBit k.val 1#2))

/-- `TX_CLK_HI` at bit `k` (R132). -/
def execTxClkHi (k : Fin 40) (s : State) : Host.Outcome State Fault Refusal :=
  .next ((s.writePin .ddsWclk true).goto (.txBit k.val 2#2))

/-- `TX_CLK_LO` at bit `k` (R133): on to the next bit, or to `TX_UPD_HI` after bit 39. -/
def execTxClkLo (k : Fin 40) (s : State) : Host.Outcome State Fault Refusal :=
  .next ((s.writePin .ddsWclk false).goto (.afterBit k))

/-- `TX_UPD_HI` (R135): the moment the new frequency takes effect in the chip. -/
def execTxUpdHi (s : State) : Host.Outcome State Fault Refusal :=
  .next ((s.writePin .ddsFqud true).goto (.phase 9#4))

/-- `TX_UPD_LO` (R136): on to `DISP_F`. -/
def execTxUpdLo (s : State) : Host.Outcome State Fault Refusal :=
  .next ((s.writePin .ddsFqud false).goto (.phase 10#4))

end Sys2Proof.Machine
end

