-- ==== Sys2Proof/Machine/Dispatch.lean ====
section
/-! DEFINITION. The meaning of every operation of the table, one arm per constructor of Instr. -/

namespace Sys2Proof.Machine

def exec (i : Instr) (s : State) : Host.Outcome State Fault Refusal :=
  match i with
  | .chaLow => Sys2Proof.Machine.execChaLow s
  | .chaHigh => Sys2Proof.Machine.execChaHigh s
  | .chbLow => Sys2Proof.Machine.execChbLow s
  | .chbHigh => Sys2Proof.Machine.execChbHigh s
  | .btnPress => Sys2Proof.Machine.execBtnPress s
  | .initRstHi => Sys2Proof.Machine.execInitRstHi s
  | .initRstLo => Sys2Proof.Machine.execInitRstLo s
  | .initClkHi => Sys2Proof.Machine.execInitClkHi s
  | .initClkLo => Sys2Proof.Machine.execInitClkLo s
  | .initUpdHi => Sys2Proof.Machine.execInitUpdHi s
  | .initUpdLo => Sys2Proof.Machine.execInitUpdLo s
  | .pollF => Sys2Proof.Machine.execPollF s
  | .txData k => Sys2Proof.Machine.execTxData k s
  | .txClkHi k => Sys2Proof.Machine.execTxClkHi k s
  | .txClkLo k => Sys2Proof.Machine.execTxClkLo k s
  | .txUpdHi => Sys2Proof.Machine.execTxUpdHi s
  | .txUpdLo => Sys2Proof.Machine.execTxUpdLo s
  | .dispF => Sys2Proof.Machine.execDispF s
  | .pollI => Sys2Proof.Machine.execPollI s
  | .dispI => Sys2Proof.Machine.execDispI s
  | .encode f => Sys2Proof.Machine.execEncode f s
  | .decode w => Sys2Proof.Machine.execDecode w s

end Sys2Proof.Machine
end

