-- ==== Sys2Proof/Machine/FrontEnd.lean ====
section
/-! DEFINITION. The input front-end (`10_state.md` R34, R41): the events one sample of the input pins issues, and their
performance one after another in the step that detects them (R47 a, R214). Also what a step does with a decoded code. -/

namespace Sys2Proof.Machine

/-- The events one source issues at a sample (R41, R212): a channel on every change, by its new level; the button on
its fall only. -/
def sourceEvents (before now : InputPins) : Source → List Instr
  | .channelA =>
    if now.encA && !before.encA then [.chaHigh]
    else if !now.encA && before.encA then [.chaLow] else []
  | .channelB =>
    if now.encB && !before.encB then [.chbHigh]
    else if !now.encB && before.encB then [.chbLow] else []
  | .button => if !now.btnN && before.btnN then [.btnPress] else []

/-- The events of one sample in a given order of the sources (R41; the order is the parameter `EVENT_ORDER`, R8, U7). -/
def sampleEvents (order : List Source) (before now : InputPins) : List Instr :=
  order.flatMap (sourceEvents before now)

/-- Operations performed one after another, each on the state the one before it left. -/
def execAll : List Instr → State → Host.Outcome State Fault Refusal
  | [], s => .next s
  | i :: is, s => andThen (exec i s) (execAll is)

/-- The sample registers take the levels of the sample (R41). -/
def State.setPrevious (s : State) (levels : InputPins) : State :=
  { s with aPrev := levels.encA, bPrev := levels.encB, btnPrev := levels.btnN }

/-- One sample of the front-end with the sources taken in the given order (R41): the events it issues are performed in
that order, then the sample registers follow the pins. The event operations neither read nor write those registers
(assumption log 5). -/
def sampleIn (order : List Source) (levels : InputPins) (s : State) : Host.Outcome State Fault Refusal :=
  execAll (sampleEvents order s.previousLevels levels) (s.setPrevious levels)

/-- One sample of the front-end in the order this hardware takes, A, then B, then the button (R8, R215, D5). -/
def samplePins (levels : InputPins) (s : State) : Host.Outcome State Fault Refusal :=
  sampleIn Config.eventOrder levels s

/-- What a step does with the code it fetched: the operation it selects, nothing on the idle event code, and a stop by
name on a code that selects nothing (R82, R84, R89). -/
def runCode (c : Code) (s : State) : Host.Outcome State Fault Refusal :=
  match decode c with
  | .op i => exec i s
  | .idle => .next s
  | .reservedEvent => .refused .reservedEvent
  | .illegalPosition => .fault .illegalPosition
  | .notAFrame => .refused .notAFrame

/-- What a step does with the environment's move `m`, taken from the stimulus of `s`. A state whose `SEQ` is not legal is
a fault whatever the move, unless it is reset (R84, R240; assumption log 2 and 9). -/
def perform (m : Move) (s : State) : Host.Outcome State Fault Refusal :=
  match m with
  | .rst levels => .next (s.resetBlock levels)
  | .event ev => if s.seq.legal then runCode (.event ev) s else .fault .illegalPosition
  | .turn => if s.seq.legal then runCode (.position s.seq.code) s else .fault .illegalPosition
  | .sample levels => if s.seq.legal then samplePins levels s else .fault .illegalPosition
  | .frame t => if s.seq.legal then runCode (.frame t) s else .fault .illegalPosition
  | .word w => if s.seq.legal then runCode (.word w) s else .fault .illegalPosition

end Sys2Proof.Machine
end

