-- ==== Sys2Proof/Machine/Step.lean ====
section
/-! DEFINITION. One step: the next move of the environment, and after the last of them the sequencer's own operations
for ever (`00_scope.md` R9, `44_controller.md` R199). -/

namespace Sys2Proof.Machine

/-- One step of the block: the next move is taken from the stimulus and performed. -/
def step (s : State) : Host.Outcome State Fault Refusal := perform s.nextMove s.pop

/-- `s` with the operation whose table bits are `w` stored where the next step finds it: an event code on the event
port, a sequencer code in `SEQ` with the sequencer's turn next, a codec code on the codec's port. Bits that fit no
format are stood for by a reserved event code, which the step refuses (assumption log 1). -/
def State.withFetchWord (s : State) (nbits w : Nat) : State :=
  match codeOfTable nbits w with
  | some c => s.withCode c
  | none => s.offer (.event 0b1111#4)

end Sys2Proof.Machine
end

