-- ==== Sys2Proof/Machine/Stimulus.lean ====
section
/-! DEFINITION. The stimulus notation and the pseudo-operations (`30_encoding.md` R91, R92): what each token does to a
state. A stimulus starts from `State.reset` unless it says otherwise. -/

namespace Sys2Proof.Machine

/-- `n` steps, ending at the first stop. -/
def stepN : Nat → State → Host.Outcome State Fault Refusal
  | 0, s => .next s
  | n + 1, s => andThen (step s) (stepN n)

/-- An operation repeated n times. -/
def repeatOp (f : State → Host.Outcome State Fault Refusal) : Nat → State → Host.Outcome State Fault Refusal
  | 0, s => .next s
  | n + 1, s => andThen (f s) (repeatOp f n)

/-- The next operation of the sequencer is `POLL_F`. -/
def State.atPollF (s : State) : Bool := decide (s.seq = SeqPos.phase 6#4)

/-- The token `s`: the sequencer performs its next one operation (R91). -/
def sequencerTurn (s : State) : Host.Outcome State Fault Refusal := step (s.offer .turn)

/-- An event token: the code is offered on the event port (R91). -/
def eventToken (ev : EventCode) (s : State) : Host.Outcome State Fault Refusal := step (s.offer (.event ev))

/-- The token `LOOP` with fuel: the sequencer performs operations until at least one has been performed and the next one
is `POLL_F` (R91). -/
def loopPass : Nat → State → Host.Outcome State Fault Refusal
  | 0, s => .next s
  | n + 1, s => andThen (sequencerTurn s) (fun t => if t.atPollF then .next t else loopPass n t)

/-- The longest pass of the Controller loop: 126 operations (R198). -/
def longestPass : Nat := 126

/-- The tokens of R91. -/
inductive Token where
  /-- `A+` -/
  | aUp
  /-- `A-` -/
  | aDown
  /-- `B+` -/
  | bUp
  /-- `B-` -/
  | bDown
  /-- `P` -/
  | press
  /-- `s` -/
  | turn
  /-- `T*n` -/
  | times (t : Token) (n : Nat)
  /-- `BOOT` = `s*6` -/
  | boot
  /-- `LOOP` -/
  | loop
  /-- `CW` = `A+ B+ A- B-` -/
  | cw
  /-- `CCW` = `B+ A+ B- A-` -/
  | ccw
  deriving DecidableEq, Repr

/-- The events of one clockwise detent (R91, R166). -/
def clockwise : List Instr := [.chaHigh, .chbHigh, .chaLow, .chbLow]

/-- The events of one counter-clockwise detent (R91, R166). -/
def counterClockwise : List Instr := [.chbHigh, .chaHigh, .chbLow, .chaLow]

/-- Event tokens left to right (R91). -/
def eventTokens : List EventCode → State → Host.Outcome State Fault Refusal
  | [], s => .next s
  | ev :: evs, s => andThen (eventToken ev s) (eventTokens evs)

/-- What a token does (R91). -/
def Token.perform : Token → State → Host.Outcome State Fault Refusal
  | .aUp, s => eventToken 0b1001#4 s
  | .aDown, s => eventToken 0b1000#4 s
  | .bUp, s => eventToken 0b1011#4 s
  | .bDown, s => eventToken 0b1010#4 s
  | .press, s => eventToken 0b1100#4 s
  | .turn, s => sequencerTurn s
  | .times t n, s => repeatOp t.perform n s
  | .boot, s => repeatOp sequencerTurn 6 s
  | .loop, s => loopPass longestPass s
  | .cw, s => eventTokens [0b1001#4, 0b1011#4, 0b1000#4, 0b1010#4] s
  | .ccw, s => eventTokens [0b1011#4, 0b1001#4, 0b1010#4, 0b1000#4] s

/-- A stimulus: its tokens left to right (R91). -/
def performAll : List Token → State → Host.Outcome State Fault Refusal
  | [], s => .next s
  | t :: ts, s => andThen (t.perform s) (performAll ts)

/-- `SEND_BIT` (R92) as operations of the sequencer, for the bit of index `k`. -/
def sendBit (k : Fin 40) : List Instr := [.txData k, .txClkHi k, .txClkLo k]

/-- `SEND_BYTE` (R92): the eight bits of byte `j`, the least significant first. -/
def sendByte (j : Fin 5) : List Instr :=
  (List.finRange 8).flatMap fun i => sendBit ⟨8 * j.val + i.val, by omega⟩

/-- `SEND_FRAME` (R92): the five bytes in order, then the latch pulse. -/
def sendFrame : List Instr := (List.finRange 5).flatMap sendByte ++ [.txUpdHi, .txUpdLo]

/-- `INIT` (R92) as operations of the sequencer. -/
def startUp : List Instr := [.initRstHi, .initRstLo, .initClkHi, .initClkLo, .initUpdHi, .initUpdLo]

end Sys2Proof.Machine
end

