-- ==== Sys2Proof/Machine/Wire.lean ====
section
/-! DEFINITION. Views of the wire: the pin writes of the start-up sequence and of one frame
(`41_serial_transmitter.md` R137, R146), and what a capture of the lines holds (`20_memory.md` R66, R68). -/

namespace Sys2Proof.Machine

/-- The six entries of the start-up sequence (R146). -/
def bootImage : List PinWrite :=
  [{ pin := .ddsReset, level := true }, { pin := .ddsReset, level := false },
   { pin := .ddsWclk, level := true }, { pin := .ddsWclk, level := false },
   { pin := .ddsFqud, level := true }, { pin := .ddsFqud, level := false }]

/-- The three entries of one bit: the data line, then one load-clock pulse (R137). -/
def bitImage (b : Bool) : List PinWrite :=
  [{ pin := .ddsData, level := b }, { pin := .ddsWclk, level := true }, { pin := .ddsWclk, level := false }]

/-- The bits of a frame in wire order, bit 0 first (R66). -/
def wireOrder (t : FrameWord) : List Bool := (List.range Config.frameBits).map t.getLsbD

/-- The 122 entries of one frame (R137). -/
def wireImage (t : FrameWord) : List PinWrite :=
  (wireOrder t).flatMap bitImage ++ [{ pin := .ddsFqud, level := true }, { pin := .ddsFqud, level := false }]

/-- The levels of the data line at each rising write of the load clock, in order: a capture of the wire, taken with the
pins at `p` before the first write. -/
def capture : Pins → List PinWrite → List Bool
  | _, [] => []
  | p, w :: ws =>
    let rest := capture (p.set w.pin w.level) ws
    if w.pin = .ddsWclk ∧ w.level = true ∧ p.ddsWclk = false then p.ddsData :: rest else rest

/-- A string of bits read as a binary number, the leftmost bit the most significant. -/
def binaryNumber (bits : List Bool) : Nat := bits.foldl (fun n b => 2 * n + b.toNat) 0

/-- The source's reassembly of a captured word (R68): cut the first 32 bits into four strings in arrival order, reverse
each, read each as a byte, and take the first byte as the least significant. -/
def reassemble (bits : List Bool) : Nat :=
  binaryNumber (bits.take 8).reverse
    + 2 ^ 8 * binaryNumber ((bits.drop 8).take 8).reverse
    + 2 ^ 16 * binaryNumber ((bits.drop 16).take 8).reverse
    + 2 ^ 24 * binaryNumber ((bits.drop 24).take 8).reverse

end Sys2Proof.Machine
end

