-- ==== Sys2Proof/Safety.lean ====
section
/-! DEFINITION. What counts as a safe run: the invariants of the block and of the wire, in the terms the statements use,
the stimuli that only interleave events with the sequencer, and the decoder over unbounded integers that the 32-bit
decoder must agree with (`42_quadrature_decoder.md` R169). -/

namespace Sys2Proof.Machine

/-- The seven decade values (R22, R183). -/
def decades : List Nat := [1, 10, 100, 1000, 10000, 100000, 1000000]

/-- The frame of a captured frequency: `ENCODE(c).frame` for the c that `HOLD_F` or `SNAP_F` holds. -/
def frameOfFreq (f : FreqWord) : FrameWord := frameOf (tuningWord (sext32 f).toNat)

/-- An output event carries a value of its register's range: `DISP_FREQ` a legal frequency, `DISP_STEP` a decade
(R225, R226). -/
def DispEvent.legal : DispEvent → Prop
  | .freq v => LegalFrequency (sext32 v)
  | .step v => zext20 v ∈ decades

/-- The number of the phase. -/
def State.phase (s : State) : Nat := s.seq.ph.toNat

/-- The frame `POLL_F` built is on its way or has just gone out: phases 7 to 10. -/
def State.sending (s : State) : Prop := 7 ≤ s.phase ∧ s.phase ≤ 10

/-- What every reachable state of the block's registers satisfies. -/
structure BlockInv (s : State) : Prop where
  /-- `SEQ` is legal (R84) -/
  legalSeq : s.seq.legal = true
  /-- `INC` is one of the seven decade values (R183) -/
  incDecade : zext20 s.inc ∈ decades
  /-- `HOLD_F` is a legal frequency (R28) -/
  holdLegal : LegalFrequency (sext32 s.holdF)
  /-- a valid `SNAP_F` is a legal frequency (R192) -/
  snapLegal : s.snapFValid = true → LegalFrequency (sext32 s.snapF)
  /-- the captured step size is a decade value when it is shown (R29, R226) -/
  holdDecade : s.phase = 12 → zext20 s.holdI ∈ decades
  /-- a valid `SNAP_I` is a decade value -/
  snapDecade : s.snapIValid = true → zext20 s.snapI ∈ decades
  /-- the frame being sent is the frame of the captured frequency (R74 b, R139) -/
  frameHeld : s.sending → s.txbuf = frameOfFreq s.holdF
  /-- the control byte is zero (R86) -/
  ctrlZero : frameCtrl s.txbuf = Config.ctrlByte
  /-- every output event carries a value of its range (R225, R226) -/
  shownLegal : ∀ e ∈ s.displog, e.legal

/-- `RX.stage` at each phase of the sequencer (R154, R156 b). -/
def stageAt (phase : Nat) : Stage :=
  if phase = 0 then .unknown
  else if phase ≤ 2 then .resetSeen
  else if phase ≤ 4 then .clkSeen
  else .serial

/-- How many bits of the frame the receiver has at each position of the sequencer (R134, R152). -/
def countAt (q : SeqPos) : Nat :=
  if q.ph = 7#4 then (if q.s = 2#2 then q.k.toNat + 1 else q.k.toNat)
  else if q.ph = 8#4 then Config.frameBits
  else 0

/-- What every reachable state satisfies on the wire and in the reference receiver (R33, R147, R156). -/
structure WireInv (s : State) : Prop extends BlockInv s where
  /-- `DDS_RESET` is high only inside its pulse (R33) -/
  resetLevel : s.pins.ddsReset = decide (s.phase = 1)
  /-- `DDS_WCLK` is high only inside its pulses (R33) -/
  wclkLevel : s.pins.ddsWclk = decide (s.phase = 3 ∨ (s.phase = 7 ∧ s.seq.s = 2#2))
  /-- `DDS_FQUD` is high only inside its pulses (R33) -/
  fqudLevel : s.pins.ddsFqud = decide (s.phase = 5 ∨ s.phase = 9)
  /-- `DDS_DATA` holds bit k from `TX_DATA` through the clock pulse (R132) -/
  dataHeld : s.phase = 7 → s.seq.s ≠ 0#2 → s.pins.ddsData = s.txbuf.getLsbD s.seq.k.toNat
  /-- outside a transmission `DDS_DATA` is low (R33, R147) -/
  dataRest : s.phase ≠ 7 → s.pins.ddsData = false
  /-- `RX.bad` is never set (R156 a) -/
  notBad : s.rx.bad = false
  /-- the receiver's stage follows the sequencer (R156 b) -/
  stage : s.rx.stage = stageAt s.phase
  /-- the receiver counts the bits sent -/
  count : s.rx.cnt = countAt s.seq
  /-- the bits received are the first bits of `TXBUF`, in wire order from the top of `RX.shift` down (R152) -/
  received : ∀ j, j < s.rx.cnt → s.rx.shift.getLsbD (Config.frameBits - s.rx.cnt + j) = s.txbuf.getLsbD j
  /-- after the latch pulse the receiver acts on the frame just sent (R156 c) -/
  committed : s.phase = 9 ∨ s.phase = 10 → s.rx.active = s.txbuf
  /-- a frame is committed exactly when a snapshot was taken or a frame was just latched -/
  valid : s.rx.activeValid = (s.snapFValid || decide (s.phase = 9 ∨ s.phase = 10))
  /-- before the start-up sequence is over nothing was observed (R241) -/
  early : s.phase < 6 → s.snapFValid = false
  /-- `POLL_I` runs only after the frequency was shown once (R200) -/
  observed : s.phase = 11 ∨ s.phase = 12 → s.snapFValid = true
  /-- outside a latch pulse and its display the receiver acts on the frequency last shown (R156 d) -/
  shown : s.snapFValid = true → s.phase ≠ 9 → s.phase ≠ 10 → s.rx.active = frameOfFreq s.snapF

/-- The receiver and the pin registers are what `PINLOG` makes of them (R43, R151). -/
def LogInv (s : State) : Prop :=
  s.rx = Receiver.replay s.runs s.pinlog ∧ s.pins = Pins.ofLog s.runs s.pinlog

/-- The frequencies shown, in order. -/
def shownFrequencies : List DispEvent → List FreqWord
  | [] => []
  | .freq v :: es => v :: shownFrequencies es
  | .step _ :: es => shownFrequencies es

/-- How many pin writes of the current frame are made at each position of the sequencer (R134, R137). -/
def writesDone (q : SeqPos) : Nat :=
  if q.ph = 7#4 then 3 * q.k.toNat + q.s.toNat
  else if q.ph = 8#4 then 120
  else if q.ph = 9#4 then 121
  else if q.ph = 10#4 then 122
  else 0

/-- What `PINLOG` is at every reachable state: the start-up sequence, then one whole frame for every frequency shown,
then as much of the frame in `TXBUF` as the sequencer has sent (R137, R146, R156). -/
def wireHistory (s : State) : List PinWrite :=
  if s.phase < 6 then bootImage.take s.phase
  else bootImage ++ (shownFrequencies s.displog).flatMap (fun f => wireImage (frameOfFreq f))
    ++ (wireImage s.txbuf).take (writesDone s.seq)

/-- The block's invariant together with the shape of its wire history. -/
structure HistoryInv (s : State) : Prop extends BlockInv s where
  /-- `PINLOG` holds exactly the writes the rules prescribe, and no others -/
  wire : s.pinlog = wireHistory s
  /-- nothing is shown before the start-up sequence is over -/
  unshown : s.phase < 6 → s.displog = []

/-- Quiescence (R265): at `POLL_F` with both snapshots valid and equal to the registers. -/
def State.quiescent (s : State) : Prop :=
  s.seq = SeqPos.phase 6#4 ∧ s.snapFValid = true ∧ s.snapF = s.freq ∧ s.snapIValid = true ∧ s.snapI = s.inc

/-- A move that interleaves with the sequencer (R9): its turn, an event code that is not reserved, or a sample of the
front-end. -/
def Move.interleaves : Move → Bool
  | .turn => true
  | .event ev => decide (decodeEvent ev ≠ .reservedEvent)
  | .sample _ => true
  | .rst _ | .frame _ | .word _ => false

/-- The decoder over unbounded integers (R169): the reference the 32-bit decoder is compared with. -/
structure IntDecoder where
  freq : Int
  inc : Nat
  latchA : Bool
  latchB : Bool
  deriving DecidableEq, Repr

/-- One event operation over unbounded integers (R161 to R164, R181); other operations leave it alone. -/
def IntDecoder.perform (d : IntDecoder) : Instr → IntDecoder
  | .chaHigh => { d with freq := if d.latchB then d.freq else d.freq + d.inc, latchA := true }
  | .chaLow => { d with latchA := false }
  | .chbHigh => { d with freq := if d.latchA then d.freq else d.freq - d.inc, latchB := true }
  | .chbLow => { d with latchB := false }
  | .btnPress => { d with inc := if d.inc / 10 < 1 then 1000000 else d.inc / 10 }
  | .initRstHi | .initRstLo | .initClkHi | .initClkLo | .initUpdHi | .initUpdLo => d
  | .pollF | .txData _ | .txClkHi _ | .txClkLo _ | .txUpdHi | .txUpdLo => d
  | .dispF | .pollI | .dispI | .encode _ | .decode _ => d

/-- The decoder's registers of a state, read as unbounded integers. -/
def State.intDecoder (s : State) : IntDecoder :=
  { freq := s.freq.toInt, inc := s.inc.toNat, latchA := s.latchA, latchB := s.latchB }

end Sys2Proof.Machine
end

