-- ==== Sys2Proof/Certificates/Slice0/Obligations.lean ====
section
/-! DEFINITION. The statements for the provers, each a proposition about the model that formalises rules of spec/. -/

open Sys2Proof Sys2Proof.Machine

/-! ### Encoding -/

/-- R88: decoding the code of a well-formed operation gives that operation back, with every operand. -/
def Obligations.EncodedOperationDecodesBack : Prop :=
  ∀ i : Instr, i.wellFormed = true → decode (encode i) = .op i

/-- R88 to R90: a code that selects an operation is that operation's own code, so no two codes select one operation
and nothing but the table's codes selects any. -/
def Obligations.DecodedCodeEncodesBack : Prop :=
  ∀ (c : Code) (i : Instr), decode c = .op i → i.wellFormed = true ∧ encode i = c

/-- R88, R90: the bits of an operation's table row, given with the row's width in whole bytes, decode to it. -/
def Obligations.TableBitsDecodeBack : Prop :=
  ∀ i : Instr, i.wellFormed = true → decodeTableWord (codeBits (encode i)) (codeNumber (encode i)) = some i

/-- R81, R83, R85, R88: words written out from the encodings decode to the operations they stand for. -/
def Obligations.WrittenOutCodesDecode : Prop :=
  decodeTableWord 8 0b1001 = some .chaHigh ∧
  decodeTableWord 8 0b1100 = some .btnPress ∧
  decodeTableWord 16 0b0101_000000_00 = some .initUpdLo ∧
  decodeTableWord 16 0b0111_100111_10 = some (.txClkLo 39) ∧
  decodeTableWord 16 0b1011_000000_00 = some .pollI ∧
  decodeTableWord 40 0x0000008637 = some (.encode 1000) ∧
  decodeTableWord 32 0x80000000 = some (.decode 0x80000000#32)

/-- R82: the idle codes are no operation and no state change, the reserved codes are refused, and the front-end never
issues one. -/
def Obligations.IdleAndReservedEventCodes : Prop :=
  (∀ (s : State) (ev : EventCode), s.seq.legal = true → ev.getLsbD 3 = false →
    step (s.offer (.event ev)) = .next s) ∧
  (∀ (s : State) (ev : EventCode), s.seq.legal = true → ev = 0b1101#4 ∨ ev = 0b1110#4 ∨ ev = 0b1111#4 →
    step (s.offer (.event ev)) = .refused .reservedEvent) ∧
  (∀ (order : List Source) (before now : InputPins), ∀ i ∈ sampleEvents order before now,
    ∃ ev : EventCode, encode i = .event ev ∧ decodeEvent ev = .op i)

/-- R84: the legal positions, `k` in 0..39 and `s` in 0..2 in phase 7 and both 0 in the other phases up to 12, are
exactly those that select an operation. -/
def Obligations.LegalPositionsSelectOperations : Prop :=
  ∀ q : SeqPos,
    (q.legal = true ↔
      (q.ph = 7#4 ∧ q.k.toNat ≤ 39 ∧ q.s.toNat ≤ 2) ∨
      (q.ph ≠ 7#4 ∧ q.ph.toNat ≤ 12 ∧ q.k = 0#6 ∧ q.s = 0#2)) ∧
    (q.legal = true ↔ ∃ i, decode (.position q.code) = .op i ∧ i.agent = .sequencer)

/-- R84: a state whose `SEQ` is not legal is a fault, whatever the move, unless the block is being reset (that
reset is still taken there is the model's choice, assumption log 2; that the fault comes before any other move is
looked at, so that it and not the refusal of R82 answers a reserved event code, is the model's, assumption log 9). -/
def Obligations.IllegalPositionFaults : Prop :=
  ∀ s : State, s.seq.legal = false → (∀ l, s.nextMove ≠ .rst l) → step s = .fault .illegalPosition

/-- R85, R86, R111: a 40-bit code is taken for `ENCODE` only if its control byte is zero and its word is that of a legal
frequency; any other is refused. That a frame decodes to the `ENCODE` it results from is the model's choice (assumption
log 8). -/
def Obligations.FramesAreResultsOfEncode : Prop :=
  ∀ (s : State) (t : FrameWord), s.seq.legal = true →
    (∃ f : Nat, f ≤ 32000000 ∧ t.toNat = f * 2 ^ 32 / 125000000 ∧
      step (s.offer (.frame t)) = exec (.encode f) s) ∨
    ((¬ ∃ f : Nat, f ≤ 32000000 ∧ t.toNat = f * 2 ^ 32 / 125000000) ∧
      step (s.offer (.frame t)) = .refused .notAFrame)

/-! ### A step -/

/-- R9, R31, R41: the code of the next step is the one the environment's move offers, or `SEQ` on the sequencer's turn
and after the last move; the step runs the operation that code selects on the state with the move taken. That a code is
offered as the head of a list of moves, and that after the end of the list the next code is `SEQ` and taking the move
changes nothing, is the model's choice (assumption log 1). -/
def Obligations.StepRunsTheDecodedOperation : Prop :=
  (∀ (s : State) (c : Code) (i : Instr), s.seq.legal = true → s.fetch = some c → decode c = .op i →
    step s = exec i s.pop) ∧
  (∀ (s : State) (ev : EventCode), (s.offer (.event ev)).fetch = some (.event ev)) ∧
  (∀ s : State, (s.offer .turn).fetch = some (.position s.seq.code)) ∧
  (∀ s : State, s.stim = [] → s.fetch = some (.position s.seq.code) ∧ s.pop = s)

/-- An operation of the table stored by its bits is the one the next step runs; nothing but `SEQ`, for a sequencer
operation, is changed to store it (where an operation is stored is the model's choice, assumption log 1). -/
def Obligations.StoredOperationRunsNext : Prop :=
  ∀ (s : State) (i : Instr), s.seq.legal = true → i.wellFormed = true →
    ∃ q : SeqPos,
      step (s.withFetchWord (codeBits (encode i)) (codeNumber (encode i))) = exec i { s with seq := q } ∧
      (i.agent = .sequencer → encode i = .position q.code) ∧ (i.agent ≠ .sequencer → q = s.seq)

/-- R210: every operation is total, on every state and with every operand. -/
def Obligations.EveryOperationCompletes : Prop :=
  ∀ (i : Instr) (s : State), ∃ t, exec i s = .next t

/-- R199, R210: from every legal position the sequencer's turn, an event that is not reserved and a sample all answer a
next state, whose position is legal again. -/
def Obligations.InterleavingNeverStops : Prop :=
  ∀ s : State, s.seq.legal = true → s.nextMove.interleaves = true → ∃ t, step s = .next t ∧ t.seq.legal = true

/-- R256, R198: the sequencer performs a `POLL_F` at least once in every 126 of its own operations: from every legal
position it is at `POLL_F` again after at least one and at most 126 of them. -/
def Obligations.PollFReturnsWithin126 : Prop :=
  ∀ s : State, s.seq.legal = true → s.stim = [] →
    ∃ n t, 1 ≤ n ∧ n ≤ 126 ∧ stepN n s = .next t ∧ t.seq = ⟨6#4, 0#6, 0#2⟩

/-! ### The quadrature decoder and the step size -/

/-- R161: the event code `0b1001` is `CHA_HIGH`; it adds `INC` to `FREQ`, wrapped to 32 bits, where `LATCH_B` is 0, sets
`LATCH_A` always, and changes nothing else. -/
def Obligations.ChannelAHighStepsUp : Prop :=
  decode (.event 0b1001#4) = .op .chaHigh ∧
  ∀ s : State, ∃ t, exec .chaHigh s = .next t ∧
    t.freq.toInt = (if s.latchB then s.freq.toInt else (s.freq.toInt + (s.inc.toNat : Int)).bmod (2 ^ 32)) ∧
    t = { s with freq := t.freq, latchA := true }

/-- R163: the event code `0b1011` is `CHB_HIGH`; it subtracts `INC` from `FREQ`, wrapped to 32 bits, where `LATCH_A` is
0, sets `LATCH_B` always, and changes nothing else. -/
def Obligations.ChannelBHighStepsDown : Prop :=
  decode (.event 0b1011#4) = .op .chbHigh ∧
  ∀ s : State, ∃ t, exec .chbHigh s = .next t ∧
    t.freq.toInt = (if s.latchA then s.freq.toInt else (s.freq.toInt - (s.inc.toNat : Int)).bmod (2 ^ 32)) ∧
    t = { s with freq := t.freq, latchB := true }

/-- R162, R164: the event codes `0b1000` and `0b1010` are a channel's fall, which clears that channel's latch and
changes nothing else. -/
def Obligations.FallsOnlyClearTheirLatch : Prop :=
  decode (.event 0b1000#4) = .op .chaLow ∧ decode (.event 0b1010#4) = .op .chbLow ∧
  ∀ s : State,
    exec .chaLow s = .next { s with latchA := false } ∧ exec .chbLow s = .next { s with latchB := false }

/-- R181: the event code `0b1100` is `BTN_PRESS`; it divides `INC` by ten, truncating, wraps a result below 1 to
1,000,000, and changes nothing else. -/
def Obligations.ButtonDividesTheStepSize : Prop :=
  decode (.event 0b1100#4) = .op .btnPress ∧
  ∀ s : State, ∃ t, exec .btnPress s = .next t ∧
    t.inc.toNat = (if s.inc.toNat / 10 < 1 then 1000000 else s.inc.toNat / 10) ∧
    t = { s with inc := t.inc }

/-- R166: from both latches low, a clean clockwise cycle moves `FREQ` by +`INC` and a clean counter-clockwise one by
−`INC`; both leave the latches low and everything else as it was. -/
def Obligations.CleanRotationMovesOneStep : Prop :=
  ∀ s : State, s.latchA = false → s.latchB = false →
    (∃ t, execAll clockwise s = .next t ∧
      t.freq.toInt = (s.freq.toInt + (s.inc.toNat : Int)).bmod (2 ^ 32) ∧ t = { s with freq := t.freq }) ∧
    (∃ t, execAll counterClockwise s = .next t ∧
      t.freq.toInt = (s.freq.toInt - (s.inc.toNat : Int)).bmod (2 ^ 32) ∧ t = { s with freq := t.freq })

/-- R167: from both latches low, (a) a bounce on A while B is low counts twice, (b) a reversal on A counts as a step,
(c) a clockwise cycle whose last edge bounces on B counts nothing. -/
def Obligations.BounceMiscounts : Prop :=
  ∀ s : State, s.latchA = false → s.latchB = false →
    (∃ t, execAll [.chaHigh, .chaLow, .chaHigh] s = .next t ∧
      t.freq.toInt = (s.freq.toInt + 2 * (s.inc.toNat : Int)).bmod (2 ^ 32) ∧
      t = { s with freq := t.freq, latchA := true }) ∧
    (∃ t, execAll [.chaHigh, .chaLow] s = .next t ∧
      t.freq.toInt = (s.freq.toInt + (s.inc.toNat : Int)).bmod (2 ^ 32) ∧ t = { s with freq := t.freq }) ∧
    execAll [.chaHigh, .chbHigh, .chaLow, .chbLow, .chbHigh, .chbLow] s = .next s

/-- R182: from any decade value, seven presses return `INC` to it and change nothing, and no smaller positive number of
presses does. -/
def Obligations.StepSizeHasPeriodSeven : Prop :=
  ∀ s : State, s.inc.toNat ∈ decades →
    execAll (List.replicate 7 .btnPress) s = .next s ∧
    ∀ n, 0 < n → n < 7 → execAll (List.replicate n .btnPress) s ≠ .next s

/-- R169, R256: over at most 2115 event operations, from a legal `FREQ` and a step size of at most 1,000,000, the 32-bit
decoder does exactly what the decoder over unbounded integers does. -/
def Obligations.DecoderAgreesWithUnboundedIntegers : Prop :=
  ∀ (es : List Instr) (s : State), (∀ e ∈ es, e.agent = .eventUnit) → es.length ≤ 2115 →
    0 ≤ s.freq.toInt → s.freq.toInt ≤ 32000000 → s.inc.toNat ≤ 1000000 →
    ∃ t, execAll es s = .next t ∧ t.intDecoder = es.foldl IntDecoder.perform s.intDecoder

/-- R36, R139: an event operation writes nothing but `FREQ`, `INC` and the latches: not `SEQ`, no pin, no buffer, no
snapshot, no history, nothing of the receiver. -/
def Obligations.EventsWriteOnlySharedRegisters : Prop :=
  ∀ (i : Instr) (s : State), i.agent = .eventUnit →
    ∃ t, exec i s = .next t ∧
      t = { s with freq := t.freq, inc := t.inc, latchA := t.latchA, latchB := t.latchB }

/-- R139, R201: an event operation and any sequencer operation but the two polls can change places: what the sequencer
sends and shows does not depend on the events that fall between. -/
def Obligations.EventsCommuteWithSending : Prop :=
  ∀ (e i : Instr) (s : State), e.agent = .eventUnit → i.agent = .sequencer → i ≠ .pollF → i ≠ .pollI →
    execAll [e, i] s = execAll [i, e] s

/-! ### The front-end -/

/-- R41: the events of one sample, in the order A, B, button: a channel's on a change, by the new level; the button's on
a fall only; afterwards the sample registers hold the levels of the sample. -/
def Obligations.SampleIssuesTheChanges : Prop :=
  (∀ p n : InputPins, sampleEvents Config.eventOrder p n =
    (if n.encA = p.encA then [] else [if n.encA then Instr.chaHigh else .chaLow]) ++
    (if n.encB = p.encB then [] else [if n.encB then Instr.chbHigh else .chbLow]) ++
    (if p.btnN = true ∧ n.btnN = false then [Instr.btnPress] else [])) ∧
  (∀ (s : State) (l : InputPins), s.seq.legal = true →
    ∃ t, step (s.offer (.sample l)) = .next t ∧ t.previousLevels = l)

/-- R41, R47, R214: a sample does in its one step what its events, offered one after another on the event port, do.
That all events of one sample are one step, with the sample registers written before them, is the model's reading
(assumption log 5); that an event offered on the port leaves the sample registers alone is its choice (log 16). -/
def Obligations.SampleEqualsItsEventsOffered : Prop :=
  ∀ (s : State) (l : InputPins) (evs : List EventCode), s.seq.legal = true →
    (sampleEvents Config.eventOrder s.previousLevels l).map encode = evs.map Code.event →
    step (s.offer (.sample l)) = eventTokens evs (s.setPrevious l)

/-- R215: both channels rising in one sample, with both latches low, move `FREQ` by +`INC` in the order this hardware
takes and would move it by −`INC` in the other; both latches are set. -/
def Obligations.SimultaneousRisesFollowTheOrder : Prop :=
  ∀ s : State, s.latchA = false → s.latchB = false → s.aPrev = false → s.bPrev = false →
    (∃ t, samplePins ⟨true, true, s.btnPrev⟩ s = .next t ∧
      t.freq.toInt = (s.freq.toInt + (s.inc.toNat : Int)).bmod (2 ^ 32) ∧
      t = { s with freq := t.freq, latchA := true, latchB := true, aPrev := true, bPrev := true }) ∧
    (∃ t, sampleIn [.channelB, .channelA, .button] ⟨true, true, s.btnPrev⟩ s = .next t ∧
      t.freq.toInt = (s.freq.toInt - (s.inc.toNat : Int)).bmod (2 ^ 32) ∧
      t = { s with freq := t.freq, latchA := true, latchB := true, aPrev := true, bPrev := true })

/-! ### The sequencer's operations -/

/-- R140 to R145: each start-up operation writes its one pin, logs the write, lets the receiver react, and goes to the
next phase. -/
def Obligations.StartUpOperationsWriteOnePin : Prop :=
  ∀ s : State,
    exec .initRstHi s = .next { s with
      pins := { s.pins with ddsReset := true }, pinlog := s.pinlog ++ [⟨.ddsReset, true⟩],
      rx := s.rx.onWrite s.runs s.pinlog.length s.pins ⟨.ddsReset, true⟩, seq := ⟨1#4, 0#6, 0#2⟩ } ∧
    exec .initRstLo s = .next { s with
      pins := { s.pins with ddsReset := false }, pinlog := s.pinlog ++ [⟨.ddsReset, false⟩],
      rx := s.rx.onWrite s.runs s.pinlog.length s.pins ⟨.ddsReset, false⟩, seq := ⟨2#4, 0#6, 0#2⟩ } ∧
    exec .initClkHi s = .next { s with
      pins := { s.pins with ddsWclk := true }, pinlog := s.pinlog ++ [⟨.ddsWclk, true⟩],
      rx := s.rx.onWrite s.runs s.pinlog.length s.pins ⟨.ddsWclk, true⟩, seq := ⟨3#4, 0#6, 0#2⟩ } ∧
    exec .initClkLo s = .next { s with
      pins := { s.pins with ddsWclk := false }, pinlog := s.pinlog ++ [⟨.ddsWclk, false⟩],
      rx := s.rx.onWrite s.runs s.pinlog.length s.pins ⟨.ddsWclk, false⟩, seq := ⟨4#4, 0#6, 0#2⟩ } ∧
    exec .initUpdHi s = .next { s with
      pins := { s.pins with ddsFqud := true }, pinlog := s.pinlog ++ [⟨.ddsFqud, true⟩],
      rx := s.rx.onWrite s.runs s.pinlog.length s.pins ⟨.ddsFqud, true⟩, seq := ⟨5#4, 0#6, 0#2⟩ } ∧
    exec .initUpdLo s = .next { s with
      pins := { s.pins with ddsFqud := false }, pinlog := s.pinlog ++ [⟨.ddsFqud, false⟩],
      rx := s.rx.onWrite s.runs s.pinlog.length s.pins ⟨.ddsFqud, false⟩, seq := ⟨6#4, 0#6, 0#2⟩ }

/-- R131 to R133: positions `(7, k, 0)`, `(7, k, 1)` and `(7, k, 2)` are `TX_DATA`, which puts bit k of `TXBUF` on the
data line, and `TX_CLK_HI` and `TX_CLK_LO`, which make the clock pulse; after the pulse the next bit follows, and after
bit 39 `TX_UPD_HI`, to which no other operation leads. -/
def Obligations.FrameBitOperations : Prop :=
  (∀ k : Fin 40,
    decode (.position (positionCode 7#4 (BitVec.ofNat 6 k) 0#2)) = .op (.txData k) ∧
    decode (.position (positionCode 7#4 (BitVec.ofNat 6 k) 1#2)) = .op (.txClkHi k) ∧
    decode (.position (positionCode 7#4 (BitVec.ofNat 6 k) 2#2)) = .op (.txClkLo k)) ∧
  (∀ (i : Instr) (s t : State), exec i s = .next t → t.phase = 8 → t.seq = s.seq ∨ i = .txClkLo 39) ∧
  ∀ (s : State) (k : Fin 40),
    exec (.txData k) s = .next { s with
      pins := { s.pins with ddsData := s.txbuf.getLsbD k }, pinlog := s.pinlog ++ [⟨.ddsData, s.txbuf.getLsbD k⟩],
      rx := s.rx.onWrite s.runs s.pinlog.length s.pins ⟨.ddsData, s.txbuf.getLsbD k⟩,
      seq := ⟨7#4, BitVec.ofNat 6 k, 1#2⟩ } ∧
    exec (.txClkHi k) s = .next { s with
      pins := { s.pins with ddsWclk := true }, pinlog := s.pinlog ++ [⟨.ddsWclk, true⟩],
      rx := s.rx.onWrite s.runs s.pinlog.length s.pins ⟨.ddsWclk, true⟩,
      seq := ⟨7#4, BitVec.ofNat 6 k, 2#2⟩ } ∧
    exec (.txClkLo k) s = .next { s with
      pins := { s.pins with ddsWclk := false }, pinlog := s.pinlog ++ [⟨.ddsWclk, false⟩],
      rx := s.rx.onWrite s.runs s.pinlog.length s.pins ⟨.ddsWclk, false⟩,
      seq := if k.val = 39 then ⟨8#4, 0#6, 0#2⟩ else ⟨7#4, BitVec.ofNat 6 (k + 1), 0#2⟩ }

/-- R135, R136: the latch pulse, then `DISP_F`. -/
def Obligations.LatchPulseOperations : Prop :=
  ∀ s : State,
    exec .txUpdHi s = .next { s with
      pins := { s.pins with ddsFqud := true }, pinlog := s.pinlog ++ [⟨.ddsFqud, true⟩],
      rx := s.rx.onWrite s.runs s.pinlog.length s.pins ⟨.ddsFqud, true⟩, seq := ⟨9#4, 0#6, 0#2⟩ } ∧
    exec .txUpdLo s = .next { s with
      pins := { s.pins with ddsFqud := false }, pinlog := s.pinlog ++ [⟨.ddsFqud, false⟩],
      rx := s.rx.onWrite s.runs s.pinlog.length s.pins ⟨.ddsFqud, false⟩, seq := ⟨10#4, 0#6, 0#2⟩ }

/-- R191: position `(6, 0, 0)` is `POLL_F`, which with a valid snapshot equal to `FREQ` writes nothing but `SEQ`;
otherwise it clamps `FREQ` into 0..32,000,000, writes the clamp back and to `HOLD_F`, puts its frame in `TXBUF` and
starts at bit 0. -/
def Obligations.PollFObservesTheFrequency : Prop :=
  decode (.position (positionCode 6#4 0#6 0#2)) = .op .pollF ∧
  ∀ s : State,
    (s.snapFValid = true → s.freq.toInt = s.snapF.toInt →
      exec .pollF s = .next { s with seq := ⟨11#4, 0#6, 0#2⟩ }) ∧
    (¬ (s.snapFValid = true ∧ s.freq.toInt = s.snapF.toInt) →
      ∃ t, exec .pollF s = .next t ∧
        t.freq.toInt = max 0 (min s.freq.toInt 32000000) ∧ t.holdF = t.freq ∧
        t.txbuf.toNat = t.freq.toInt.toNat * 2 ^ 32 / 125000000 ∧
        t = { s with freq := t.freq, holdF := t.holdF, txbuf := t.txbuf, seq := ⟨7#4, 0#6, 0#2⟩ })

/-- R195: position `(11, 0, 0)` is `POLL_I`, which with a valid snapshot equal to `INC` writes nothing but `SEQ`;
otherwise it wraps a step size below 1 to 1,000,000, writes it back and captures it in `HOLD_I`. -/
def Obligations.PollIObservesTheStepSize : Prop :=
  decode (.position (positionCode 11#4 0#6 0#2)) = .op .pollI ∧
  ∀ s : State,
    (s.snapIValid = true → s.inc.toNat = s.snapI.toNat →
      exec .pollI s = .next { s with seq := ⟨6#4, 0#6, 0#2⟩ }) ∧
    (¬ (s.snapIValid = true ∧ s.inc.toNat = s.snapI.toNat) →
      ∃ t, exec .pollI s = .next t ∧
        t.inc.toNat = (if s.inc.toNat < 1 then 1000000 else s.inc.toNat) ∧ t.holdI = t.inc ∧
        t = { s with inc := t.inc, holdI := t.holdI, seq := ⟨12#4, 0#6, 0#2⟩ })

/-- R194, R196: positions `(10, 0, 0)` and `(12, 0, 0)` are `DISP_F` and `DISP_I`, which show the captured value, take
it as the snapshot and make the snapshot valid. -/
def Obligations.DisplayTakesTheSnapshot : Prop :=
  decode (.position (positionCode 10#4 0#6 0#2)) = .op .dispF ∧
  decode (.position (positionCode 12#4 0#6 0#2)) = .op .dispI ∧
  ∀ s : State,
    exec .dispF s = .next { s with
      displog := s.displog ++ [.freq s.holdF], snapF := s.holdF, snapFValid := true, seq := ⟨11#4, 0#6, 0#2⟩ } ∧
    exec .dispI s = .next { s with
      displog := s.displog ++ [.step s.holdI], snapI := s.holdI, snapIValid := true, seq := ⟨6#4, 0#6, 0#2⟩ }

/-- R225: on the display port the 25 bits carry the whole frequency, for every legal frequency. -/
def Obligations.DisplayPortCarriesTheFrequency : Prop :=
  ∀ v : FreqWord, 0 ≤ v.toInt → v.toInt ≤ 32000000 →
    ∃ p, displayFreqPort [.freq v] = some p ∧ (p.toNat : Int) = v.toInt ∧ displayStepPort [.freq v] = none

/-- R198: with nothing changed, a pass of the Controller loop is 2 operations and changes nothing; with only the step
size changed it is 3 operations that show it and send nothing. -/
def Obligations.PassWithoutFrequencyChange : Prop :=
  ∀ s : State, s.seq = ⟨6#4, 0#6, 0#2⟩ → s.stim = [] → s.snapFValid = true → s.snapF = s.freq →
    (s.snapIValid = true → s.snapI = s.inc → stepN 2 s = .next s) ∧
    (¬ (s.snapIValid = true ∧ s.snapI = s.inc) → ∃ t, stepN 3 s = .next t ∧
      t.inc.toNat = (if s.inc.toNat < 1 then 1000000 else s.inc.toNat) ∧
      t = { s with
        inc := t.inc, holdI := t.inc, snapI := t.inc, snapIValid := true, displog := s.displog ++ [.step t.inc] })

/-- R198, R191, R137, R194: with the frequency changed, a pass is 125 operations, 126 if the step size changed too: the
clamped frequency is written back, sent as one whole frame, shown, and taken as the snapshot. -/
def Obligations.PassWithFrequencyChange : Prop :=
  ∀ s : State, s.seq = ⟨6#4, 0#6, 0#2⟩ → s.stim = [] → ¬ (s.snapFValid = true ∧ s.snapF = s.freq) →
    ∃ t w, stepN (if s.snapIValid = true ∧ s.snapI = s.inc then 125 else 126) s = .next t ∧
      t.seq = ⟨6#4, 0#6, 0#2⟩ ∧
      t.freq.toInt = max 0 (min s.freq.toInt 32000000) ∧ t.snapF = t.freq ∧ t.snapFValid = true ∧
      w.toNat = t.freq.toInt.toNat * 2 ^ 32 / 125000000 ∧ t.txbuf = w ∧ t.pinlog = s.pinlog ++ wireImage w ∧
      t.snapI = t.inc ∧ t.snapIValid = true ∧
      (s.snapIValid = true → s.snapI = s.inc → t.inc = s.inc ∧ t.displog = s.displog ++ [.freq t.freq]) ∧
      (¬ (s.snapIValid = true ∧ s.snapI = s.inc) →
        t.inc.toNat = (if s.inc.toNat < 1 then 1000000 else s.inc.toNat) ∧
        t.displog = s.displog ++ [.freq t.freq, .step t.inc]) ∧
      t.latchA = s.latchA ∧ t.latchB = s.latchB ∧ t.previousLevels = s.previousLevels

/-- R265: in a quiescent state with no further moves the sequencer alternates `POLL_F` and `POLL_I` for ever and changes
nothing but `SEQ`. -/
def Obligations.QuiescentStateStays : Prop :=
  ∀ (s : State) (n : Nat), s.quiescent → s.stim = [] →
    stepN (2 * n) s = .next s ∧ stepN (2 * n + 1) s = .next { s with seq := ⟨11#4, 0#6, 0#2⟩ }

/-! ### The codec -/

/-- R111, R113: for a legal frequency `ENCODE` answers w = floor(f × 2^32 / 125,000,000) and the frame with the zero
control byte above it, and changes no state of the block; where the answer is recorded is the model's choice
(assumption log 8). -/
def Obligations.EncodeAnswersWordAndFrame : Prop :=
  ∀ (f : Int) (s : State), 0 ≤ f → f ≤ 32000000 →
    ∃ w : TuningWord, (w.toNat : Int) = f * 2 ^ 32 / 125000000 ∧
      exec (.encode f) s = .next { s with codec := .encoded w (0x00#8 ++ w) }

/-- R114: outside the legal range `ENCODE` still answers a frame whose control byte is zero and changes no state of the
block; nothing is said of the word, which is drawn. Where the answer and the draw are recorded is the model's choice
(assumption log 6 and 8). -/
def Obligations.EncodeOutsideRangeKeepsControlByte : Prop :=
  ∀ (f : Int) (s : State), f < 0 ∨ 32000000 < f →
    ∃ w : TuningWord,
      exec (.encode f) s = .next { s with codec := .encoded w (0x00#8 ++ w), draws := s.draws + 1 }

/-- R115: `DECODE` answers w × 125,000,000 / 2^32 as an exact rational number and changes no state of the block;
where the answer is recorded is the model's choice (assumption log 8). -/
def Obligations.DecodeAnswersExactRational : Prop :=
  ∀ (w : TuningWord) (s : State), ∃ q : Rat,
    q * 2 ^ 32 = (w.toNat : Rat) * 125000000 ∧ exec (.decode w) s = .next { s with codec := .decoded q }

/-- R116: decoding the word of a legal frequency gives it back within one quantization step, never above it, exactly for
the multiples of 1,953,125, and always so that the least integer not below the result is the frequency itself. -/
def Obligations.CodecRoundTripWithinOneStep : Prop :=
  ∀ f : Nat, f ≤ 32000000 →
    0 ≤ (f : Rat) - decodeHz (tuningWord f) ∧
    (f : Rat) - decodeHz (tuningWord f) < 125000000 / 2 ^ 32 ∧
    ((f : Rat) - decodeHz (tuningWord f) = 0 ↔ 1953125 ∣ f) ∧
    ⌈decodeHz (tuningWord f)⌉ = (f : Int)

/-- R117: `ENCODE` is strictly increasing on the legal frequencies, by 34 or 35 for each Hz, never above 1,099,511,627,
and leaves frame bits 39 to 31 zero. -/
def Obligations.CodecIsStrictlyIncreasing : Prop :=
  (∀ f g : Nat, f < g → g ≤ 32000000 → (tuningWord f).toNat < (tuningWord g).toNat) ∧
  (∀ f : Nat, f < 32000000 →
    (tuningWord (f + 1)).toNat = (tuningWord f).toNat + 34 ∨
    (tuningWord (f + 1)).toNat = (tuningWord f).toNat + 35) ∧
  (∀ f : Nat, f ≤ 32000000 → (tuningWord f).toNat ≤ 1099511627 ∧
    ∀ j, 31 ≤ j → (frameOf (tuningWord f)).getLsbD j = false)

/-- R64, R113: the five bytes of a frame, for every argument of `ENCODE`: the four bytes of the word, least significant
first, then the zero control byte. -/
def Obligations.FrameHasFiveBytes : Prop :=
  ∀ (draw : TuningWord) (f : Int),
    frameBytes (frameOf (encodeWord draw f)) =
      [(encodeWord draw f).extractLsb' 0 8, (encodeWord draw f).extractLsb' 8 8,
       (encodeWord draw f).extractLsb' 16 8, (encodeWord draw f).extractLsb' 24 8, 0x00#8]

/-! ### The wire -/

/-- R66, R68: a capture of one frame has 40 bits, the k-th of them bit k of the frame; cutting its first 32 bits into
bytes in arrival order, reversing each and assembling them least significant first gives the tuning word. -/
def Obligations.CapturedFrameReassembles : Prop :=
  ∀ (p : Pins) (w : TuningWord), p.ddsWclk = false →
    (capture p (wireImage (frameOf w))).length = 40 ∧
    (∀ k, k < 40 → (capture p (wireImage (frameOf w)))[k]? = some ((frameOf w).getLsbD k)) ∧
    reassemble (capture p (wireImage (frameOf w))) = w.toNat

/-- R134, R137, R139: from the start of a transmission, 122 operations of the sequencer, with any events and samples
between them, append exactly the wire image of the frame in `TXBUF` and end at `DISP_F`. -/
def Obligations.TransmissionIgnoresEvents : Prop :=
  ∀ (s : State) (ms rest : List Move), s.seq = ⟨7#4, 0#6, 0#2⟩ → s.stim = ms ++ rest →
    (∀ m ∈ ms, m.interleaves = true) → ms.count .turn = 122 →
    ∃ t, stepN ms.length s = .next t ∧ t.stim = rest ∧ t.seq = ⟨10#4, 0#6, 0#2⟩ ∧ t.txbuf = s.txbuf ∧
      t.pinlog = s.pinlog ++ wireImage s.txbuf ∧ t.displog = s.displog

/-- R146, R147, R241: from the reset position, the sequencer's first six operations, with any events and samples between
them, append exactly the six writes of the start-up sequence, leave the data line alone and end at `POLL_F`. -/
def Obligations.StartUpSequenceComesFirst : Prop :=
  ∀ (s : State) (ms rest : List Move), s.seq = ⟨0#4, 0#6, 0#2⟩ → s.stim = ms ++ rest →
    (∀ m ∈ ms, m.interleaves = true) → ms.count .turn = 6 →
    ∃ t, stepN ms.length s = .next t ∧ t.stim = rest ∧ t.seq = ⟨6#4, 0#6, 0#2⟩ ∧
      t.pinlog = s.pinlog ++
        [⟨.ddsReset, true⟩, ⟨.ddsReset, false⟩, ⟨.ddsWclk, true⟩, ⟨.ddsWclk, false⟩, ⟨.ddsFqud, true⟩, ⟨.ddsFqud, false⟩] ∧
      t.pins.ddsData = s.pins.ddsData

/-- R141, R146, R198: once the start-up sequence is over, no step but the block's own reset leads back to it, and the
chip's reset line is never written again. -/
def Obligations.StartUpIsNeverRepeated : Prop :=
  ∀ s t : State, 6 ≤ s.phase → (∀ l, s.nextMove ≠ .rst l) → step s = .next t →
    6 ≤ t.phase ∧ t.pins.ddsReset = s.pins.ddsReset ∧
    ∃ ws, t.pinlog = s.pinlog ++ ws ∧ ∀ w ∈ ws, w.pin ≠ .ddsReset

/-! ### The reference receiver -/

/-- R151: a write that lowers a pin, a write to a pin already high and a write of the data line change nothing in a
receiver that is not bad. -/
def Obligations.OnlyRisingWritesAct : Prop :=
  ∀ (r : Receiver) (run place : Nat) (p : Pins) (w : PinWrite), r.bad = false →
    w.level = false ∨ p.get w.pin = true ∨ w.pin = .ddsData → r.onWrite run place p w = r

/-- R152: a rising load clock shifts the data line in at the top and counts it in serial mode, is the mode-entry clock
after a reset, and breaks the protocol otherwise. -/
def Obligations.LoadClockShiftsOneBitIn : Prop :=
  ∀ (r : Receiver) (run place : Nat) (p : Pins), r.bad = false → p.ddsWclk = false →
    (r.stage = .serial → ∃ x, r.onWrite run place p ⟨.ddsWclk, true⟩ = { r with shift := x, cnt := r.cnt + 1 } ∧
      x.getLsbD 39 = p.ddsData ∧ ∀ j, j < 39 → x.getLsbD j = r.shift.getLsbD (j + 1)) ∧
    (r.stage = .resetSeen → r.onWrite run place p ⟨.ddsWclk, true⟩ = { r with stage := .clkSeen }) ∧
    (r.stage = .unknown ∨ r.stage = .clkSeen → (r.onWrite run place p ⟨.ddsWclk, true⟩).bad = true)

/-- R153: a rising latch line commits a frame of exactly 40 bits whole, enters serial mode after the mode-entry clock,
and breaks the protocol otherwise, a partial or over-long frame among the rest. -/
def Obligations.LatchCommitsWholeFramesOnly : Prop :=
  ∀ (r : Receiver) (run place : Nat) (p : Pins), r.bad = false → p.ddsFqud = false →
    (r.stage = .serial → r.cnt = 40 →
      r.onWrite run place p ⟨.ddsFqud, true⟩ = { r with active := r.shift, activeValid := true, cnt := 0 }) ∧
    (r.stage = .serial → r.cnt ≠ 40 → (r.onWrite run place p ⟨.ddsFqud, true⟩).bad = true) ∧
    (r.stage = .clkSeen → r.onWrite run place p ⟨.ddsFqud, true⟩ = { r with stage := .serial, cnt := 0 }) ∧
    (r.stage = .unknown ∨ r.stage = .resetSeen → (r.onWrite run place p ⟨.ddsFqud, true⟩).bad = true)

/-- R154: a rising reset line puts the receiver in stage `reset_seen` from any stage, with no frame valid and no bit
counted; nothing is said of `RX.shift`. -/
def Obligations.ChipResetForgetsTheFrame : Prop :=
  ∀ (r : Receiver) (run place : Nat) (p : Pins), r.bad = false → p.ddsReset = false →
    ∃ x, r.onWrite run place p ⟨.ddsReset, true⟩ =
      { r with stage := .resetSeen, activeValid := false, cnt := 0, shift := x }

/-- R150, R155: once the protocol is broken, every step but the block's own reset leaves it broken. -/
def Obligations.BrokenProtocolStaysBroken : Prop :=
  ∀ s t : State, s.rx.bad = true → (∀ l, s.nextMove ≠ .rst l) → step s = .next t → t.rx.bad = true

/-! ### Reset and the invariants -/

/-- R48: the values the spec states for reset. The sample registers and the receiver's unspecified registers are not
named here: their values are the model's choice (assumption log 3 and 4). -/
def Obligations.ResetLeavesTheStatedValues : Prop :=
  State.reset.freq.toInt = 1000 ∧ State.reset.inc.toNat = 1000 ∧
  State.reset.latchA = false ∧ State.reset.latchB = false ∧
  State.reset.snapFValid = false ∧ State.reset.snapF = 0#32 ∧
  State.reset.snapIValid = false ∧ State.reset.snapI = 0#20 ∧
  State.reset.holdF = 0#32 ∧ State.reset.holdI = 0#20 ∧ State.reset.txbuf = 0#40 ∧
  State.reset.seq = ⟨0#4, 0#6, 0#2⟩ ∧ State.reset.pins = ⟨false, false, false, false⟩ ∧
  State.reset.pinlog = [] ∧ State.reset.displog = [] ∧
  State.reset.rx.stage = .unknown ∧ State.reset.rx.cnt = 0 ∧
  State.reset.rx.activeValid = false ∧ State.reset.rx.bad = false

/-- R34, R240: `rst` takes every element of the block to its reset value from any state whatever, an illegal one and one
in mid-transmission among them; the sample registers follow the pins. What is kept of the model's own fields is the
model's choice (assumption log 2). -/
def Obligations.RstReturnsToReset : Prop :=
  ∀ (s : State) (l : InputPins), ∃ t, step (s.offer (.rst l)) = .next t ∧
    t = { State.reset with
      aPrev := l.encA, bPrev := l.encB, btnPrev := l.btnN,
      stim := s.stim, codec := s.codec, runs := s.runs + 1, draws := s.draws }

/-- The invariants hold at reset, for the model's values of what the spec leaves open there (assumption log 3 and 4). -/
def Obligations.InvariantsHoldAtReset : Prop :=
  WireInv State.reset ∧ HistoryInv State.reset ∧ LogInv State.reset

/-- R28, R84, R183, R192, R86, R225: every step keeps the block's invariant: a legal `SEQ`, a decade step size, legal
captured and shown values, the frame being sent that of the captured frequency. -/
def Obligations.StepKeepsBlockInvariant : Prop :=
  ∀ s t : State, BlockInv s → step s = .next t → BlockInv t

/-- R33, R147, R156: every step keeps the wire's invariant: pin levels at rest outside their pulses, the receiver never
broken, its bits those sent, its active frame that of the frequency last latched. -/
def Obligations.StepKeepsWireInvariant : Prop :=
  ∀ s t : State, WireInv s → step s = .next t → WireInv t

/-- R137, R146, R156: every step keeps the history's shape: `PINLOG` is the start-up sequence, one whole frame for each
frequency shown, and the part of the current frame the position says is out. -/
def Obligations.StepKeepsWireHistory : Prop :=
  ∀ s t : State, HistoryInv s → step s = .next t → HistoryInv t

/-- R43, R151: every step keeps the receiver and the pins functions of `PINLOG`. -/
def Obligations.StepKeepsReceiverOfLog : Prop :=
  ∀ s t : State, LogInv s → step s = .next t → LogInv t

/-- R156 c: once a frame is latched the chip acts on the word of the captured frequency, and from its display on, on the
word of the frequency last shown. -/
def Obligations.ChipActsOnTheObservedFrequency : Prop :=
  ∀ s : State, WireInv s →
    (s.phase = 9 ∨ s.phase = 10 → s.chipWord.toNat = s.holdF.toInt.toNat * 2 ^ 32 / 125000000) ∧
    (s.snapFValid = true → s.phase ≠ 9 → s.phase ≠ 10 →
      s.chipWord.toNat = s.snapF.toInt.toNat * 2 ^ 32 / 125000000)

/-- R156 d: the chip keeps the old frequency through every step but the latch pulse's rise and the block's reset, and
takes the new one whole at that rise. -/
def Obligations.ChipChangesAtTheLatchOnly : Prop :=
  ∀ s t : State, WireInv s → step s = .next t → (∀ l, s.nextMove ≠ .rst l) →
    (¬ (s.nextMove = .turn ∧ s.phase = 8) →
      t.rx.activeValid = s.rx.activeValid ∧ (s.rx.activeValid = true →
        t.rx.active = s.rx.active ∧ t.chipWord = s.chipWord)) ∧
    (s.nextMove = .turn → s.phase = 8 → t.rx.activeValid = true ∧ t.rx.active = s.txbuf)
end

