-- ==== Sys2Proof/Laws/Codec.lean ====
section
/-! SUPPORT. The small lemmas of the arithmetic and of the TuningWordCodec: what a legal frequency's tuning word is as a
number, that it determines the frequency, and the fields of a frame. -/

namespace Sys2Proof.Machine

/-! ### bringing a value to a width -/

theorem sext32_wrap32 {v : Int} (h : -2147483648 ≤ v ∧ v < 2147483648) : sext32 (wrap32 v) = v := by
  simp only [sext32, wrap32, BitVec.toInt_ofInt, Int.bmod_def]
  split <;> omega

theorem zext20_trunc20 {n : Nat} (h : n < 1048576) : zext20 (trunc20 n) = n := by
  simp only [zext20, trunc20, BitVec.toNat_ofNat]
  omega

/-- The clamp of a frequency is a legal frequency (R193). -/
theorem clampFrequency_legal (v : Int) : LegalFrequency (clampFrequency v) := by
  simp only [LegalFrequency, clampFrequency, clamp, Config.minVal, Config.maxVal]
  split
  · omega
  · split <;> omega

/-- A legal frequency is its own clamp. -/
theorem clampFrequency_of_legal {v : Int} (h : LegalFrequency v) : clampFrequency v = v := by
  simp only [LegalFrequency, Config.minVal, Config.maxVal] at h
  simp only [clampFrequency, clamp, Config.minVal, Config.maxVal]
  rw [if_neg (by omega), if_neg (by omega)]

/-- A legal frequency fits the 32-bit registers. -/
theorem sext32_wrap32_of_legal {v : Int} (h : LegalFrequency v) : sext32 (wrap32 v) = v := by
  simp only [LegalFrequency, Config.minVal, Config.maxVal] at h
  exact sext32_wrap32 (by omega)

/-- A division of the step size stays within 20 bits and does not exceed the larger of the step and `MAX_INC`. -/
theorem nextIncrement_le {i : Nat} (h : i ≤ 1048575) : nextIncrement i ≤ 1000000 := by
  simp only [nextIncrement, Config.divFactor, Config.minInc, Config.maxInc]
  split <;> omega

/-! ### the tuning word -/

/-- The word of a frequency below the reference clock is the quotient of R111, unwrapped. -/
theorem tuningWord_toNat {f : Nat} (h : f < 125000000) : (tuningWord f).toNat = f * 4294967296 / 125000000 := by
  have e : (2 : Nat) ^ 32 = 4294967296 := by norm_num
  simp only [tuningWord, codecProduct, Config.refClk, BitVec.toNat_ofNat, e]
  omega

/-- A legal frequency's word determines it: the frequency is the least integer not below the word's own (R116). -/
theorem frequencyOf_tuningWord {f : Nat} (h : f ≤ 32000000) : frequencyOf (tuningWord f) = f := by
  simp only [frequencyOf, tuningWord_toNat (show f < 125000000 by omega), Config.refClk]
  omega

theorem encodeWord_of_legal {f : Int} (draw : TuningWord) (h : LegalFrequency f) :
    encodeWord draw f = tuningWord f.toNat := if_pos h

theorem encodeWord_of_not_legal {f : Int} (draw : TuningWord) (h : ¬ LegalFrequency f) : encodeWord draw f = draw :=
  if_neg h

/-! ### the frame -/

/-- Each bit of a frame: the word below, zeros above (R85). -/
theorem frameOf_getLsbD (w : TuningWord) (j : Nat) : (frameOf w).getLsbD j = (decide (j < 32) && w.getLsbD j) := by
  simp only [frameOf, Config.ctrlByte, BitVec.getLsbD_append]
  by_cases h : j < 32 <;> simp [h]

@[simp] theorem frameWord_frameOf (w : TuningWord) : frameWord (frameOf w) = w := by
  apply BitVec.eq_of_getLsbD_eq
  intro i hi
  simp [frameWord, frameOf_getLsbD, hi]

@[simp] theorem frameCtrl_frameOf (w : TuningWord) : frameCtrl (frameOf w) = Config.ctrlByte := by
  apply BitVec.eq_of_getLsbD_eq
  intro i hi
  simp [frameCtrl, frameOf_getLsbD, Config.ctrlByte]

/-- Above bit 31 a frame holds zeros (R86). -/
theorem frameOf_ctrl_zero (w : TuningWord) {j : Nat} (h : 32 ≤ j) : (frameOf w).getLsbD j = false := by
  simp [frameOf_getLsbD, Nat.not_lt.mpr h]

end Sys2Proof.Machine
end

