-- ==== Sys2Proof/Laws/State.lean ====
section
/-! SUPPORT. One lemma per field per named update of State: what the update leaves in that field. No later proof unfolds
a record update. -/

namespace Sys2Proof.Machine

/-! ### `LATCH_A <- v` -/

@[simp] theorem State.setLatchA_freq (s : State) (v : Bool) : (s.setLatchA v).freq = s.freq := rfl
@[simp] theorem State.setLatchA_inc (s : State) (v : Bool) : (s.setLatchA v).inc = s.inc := rfl
@[simp] theorem State.setLatchA_latchA (s : State) (v : Bool) : (s.setLatchA v).latchA = v := rfl
@[simp] theorem State.setLatchA_latchB (s : State) (v : Bool) : (s.setLatchA v).latchB = s.latchB := rfl
@[simp] theorem State.setLatchA_snapF (s : State) (v : Bool) : (s.setLatchA v).snapF = s.snapF := rfl
@[simp] theorem State.setLatchA_snapFValid (s : State) (v : Bool) : (s.setLatchA v).snapFValid = s.snapFValid := rfl
@[simp] theorem State.setLatchA_snapI (s : State) (v : Bool) : (s.setLatchA v).snapI = s.snapI := rfl
@[simp] theorem State.setLatchA_snapIValid (s : State) (v : Bool) : (s.setLatchA v).snapIValid = s.snapIValid := rfl
@[simp] theorem State.setLatchA_holdF (s : State) (v : Bool) : (s.setLatchA v).holdF = s.holdF := rfl
@[simp] theorem State.setLatchA_holdI (s : State) (v : Bool) : (s.setLatchA v).holdI = s.holdI := rfl
@[simp] theorem State.setLatchA_txbuf (s : State) (v : Bool) : (s.setLatchA v).txbuf = s.txbuf := rfl
@[simp] theorem State.setLatchA_seq (s : State) (v : Bool) : (s.setLatchA v).seq = s.seq := rfl
@[simp] theorem State.setLatchA_pins (s : State) (v : Bool) : (s.setLatchA v).pins = s.pins := rfl
@[simp] theorem State.setLatchA_aPrev (s : State) (v : Bool) : (s.setLatchA v).aPrev = s.aPrev := rfl
@[simp] theorem State.setLatchA_bPrev (s : State) (v : Bool) : (s.setLatchA v).bPrev = s.bPrev := rfl
@[simp] theorem State.setLatchA_btnPrev (s : State) (v : Bool) : (s.setLatchA v).btnPrev = s.btnPrev := rfl
@[simp] theorem State.setLatchA_pinlog (s : State) (v : Bool) : (s.setLatchA v).pinlog = s.pinlog := rfl
@[simp] theorem State.setLatchA_displog (s : State) (v : Bool) : (s.setLatchA v).displog = s.displog := rfl
@[simp] theorem State.setLatchA_rx (s : State) (v : Bool) : (s.setLatchA v).rx = s.rx := rfl
@[simp] theorem State.setLatchA_stim (s : State) (v : Bool) : (s.setLatchA v).stim = s.stim := rfl
@[simp] theorem State.setLatchA_codec (s : State) (v : Bool) : (s.setLatchA v).codec = s.codec := rfl
@[simp] theorem State.setLatchA_runs (s : State) (v : Bool) : (s.setLatchA v).runs = s.runs := rfl
@[simp] theorem State.setLatchA_draws (s : State) (v : Bool) : (s.setLatchA v).draws = s.draws := rfl

/-! ### `LATCH_B <- v` -/

@[simp] theorem State.setLatchB_freq (s : State) (v : Bool) : (s.setLatchB v).freq = s.freq := rfl
@[simp] theorem State.setLatchB_inc (s : State) (v : Bool) : (s.setLatchB v).inc = s.inc := rfl
@[simp] theorem State.setLatchB_latchA (s : State) (v : Bool) : (s.setLatchB v).latchA = s.latchA := rfl
@[simp] theorem State.setLatchB_latchB (s : State) (v : Bool) : (s.setLatchB v).latchB = v := rfl
@[simp] theorem State.setLatchB_snapF (s : State) (v : Bool) : (s.setLatchB v).snapF = s.snapF := rfl
@[simp] theorem State.setLatchB_snapFValid (s : State) (v : Bool) : (s.setLatchB v).snapFValid = s.snapFValid := rfl
@[simp] theorem State.setLatchB_snapI (s : State) (v : Bool) : (s.setLatchB v).snapI = s.snapI := rfl
@[simp] theorem State.setLatchB_snapIValid (s : State) (v : Bool) : (s.setLatchB v).snapIValid = s.snapIValid := rfl
@[simp] theorem State.setLatchB_holdF (s : State) (v : Bool) : (s.setLatchB v).holdF = s.holdF := rfl
@[simp] theorem State.setLatchB_holdI (s : State) (v : Bool) : (s.setLatchB v).holdI = s.holdI := rfl
@[simp] theorem State.setLatchB_txbuf (s : State) (v : Bool) : (s.setLatchB v).txbuf = s.txbuf := rfl
@[simp] theorem State.setLatchB_seq (s : State) (v : Bool) : (s.setLatchB v).seq = s.seq := rfl
@[simp] theorem State.setLatchB_pins (s : State) (v : Bool) : (s.setLatchB v).pins = s.pins := rfl
@[simp] theorem State.setLatchB_aPrev (s : State) (v : Bool) : (s.setLatchB v).aPrev = s.aPrev := rfl
@[simp] theorem State.setLatchB_bPrev (s : State) (v : Bool) : (s.setLatchB v).bPrev = s.bPrev := rfl
@[simp] theorem State.setLatchB_btnPrev (s : State) (v : Bool) : (s.setLatchB v).btnPrev = s.btnPrev := rfl
@[simp] theorem State.setLatchB_pinlog (s : State) (v : Bool) : (s.setLatchB v).pinlog = s.pinlog := rfl
@[simp] theorem State.setLatchB_displog (s : State) (v : Bool) : (s.setLatchB v).displog = s.displog := rfl
@[simp] theorem State.setLatchB_rx (s : State) (v : Bool) : (s.setLatchB v).rx = s.rx := rfl
@[simp] theorem State.setLatchB_stim (s : State) (v : Bool) : (s.setLatchB v).stim = s.stim := rfl
@[simp] theorem State.setLatchB_codec (s : State) (v : Bool) : (s.setLatchB v).codec = s.codec := rfl
@[simp] theorem State.setLatchB_runs (s : State) (v : Bool) : (s.setLatchB v).runs = s.runs := rfl
@[simp] theorem State.setLatchB_draws (s : State) (v : Bool) : (s.setLatchB v).draws = s.draws := rfl

/-! ### `SEQ <- q` -/

@[simp] theorem State.goto_freq (s : State) (q : SeqPos) : (s.goto q).freq = s.freq := rfl
@[simp] theorem State.goto_inc (s : State) (q : SeqPos) : (s.goto q).inc = s.inc := rfl
@[simp] theorem State.goto_latchA (s : State) (q : SeqPos) : (s.goto q).latchA = s.latchA := rfl
@[simp] theorem State.goto_latchB (s : State) (q : SeqPos) : (s.goto q).latchB = s.latchB := rfl
@[simp] theorem State.goto_snapF (s : State) (q : SeqPos) : (s.goto q).snapF = s.snapF := rfl
@[simp] theorem State.goto_snapFValid (s : State) (q : SeqPos) : (s.goto q).snapFValid = s.snapFValid := rfl
@[simp] theorem State.goto_snapI (s : State) (q : SeqPos) : (s.goto q).snapI = s.snapI := rfl
@[simp] theorem State.goto_snapIValid (s : State) (q : SeqPos) : (s.goto q).snapIValid = s.snapIValid := rfl
@[simp] theorem State.goto_holdF (s : State) (q : SeqPos) : (s.goto q).holdF = s.holdF := rfl
@[simp] theorem State.goto_holdI (s : State) (q : SeqPos) : (s.goto q).holdI = s.holdI := rfl
@[simp] theorem State.goto_txbuf (s : State) (q : SeqPos) : (s.goto q).txbuf = s.txbuf := rfl
@[simp] theorem State.goto_seq (s : State) (q : SeqPos) : (s.goto q).seq = q := rfl
@[simp] theorem State.goto_pins (s : State) (q : SeqPos) : (s.goto q).pins = s.pins := rfl
@[simp] theorem State.goto_aPrev (s : State) (q : SeqPos) : (s.goto q).aPrev = s.aPrev := rfl
@[simp] theorem State.goto_bPrev (s : State) (q : SeqPos) : (s.goto q).bPrev = s.bPrev := rfl
@[simp] theorem State.goto_btnPrev (s : State) (q : SeqPos) : (s.goto q).btnPrev = s.btnPrev := rfl
@[simp] theorem State.goto_pinlog (s : State) (q : SeqPos) : (s.goto q).pinlog = s.pinlog := rfl
@[simp] theorem State.goto_displog (s : State) (q : SeqPos) : (s.goto q).displog = s.displog := rfl
@[simp] theorem State.goto_rx (s : State) (q : SeqPos) : (s.goto q).rx = s.rx := rfl
@[simp] theorem State.goto_stim (s : State) (q : SeqPos) : (s.goto q).stim = s.stim := rfl
@[simp] theorem State.goto_codec (s : State) (q : SeqPos) : (s.goto q).codec = s.codec := rfl
@[simp] theorem State.goto_runs (s : State) (q : SeqPos) : (s.goto q).runs = s.runs := rfl
@[simp] theorem State.goto_draws (s : State) (q : SeqPos) : (s.goto q).draws = s.draws := rfl

/-! ### an output event -/

@[simp] theorem State.emit_freq (s : State) (e : DispEvent) : (s.emit e).freq = s.freq := rfl
@[simp] theorem State.emit_inc (s : State) (e : DispEvent) : (s.emit e).inc = s.inc := rfl
@[simp] theorem State.emit_latchA (s : State) (e : DispEvent) : (s.emit e).latchA = s.latchA := rfl
@[simp] theorem State.emit_latchB (s : State) (e : DispEvent) : (s.emit e).latchB = s.latchB := rfl
@[simp] theorem State.emit_snapF (s : State) (e : DispEvent) : (s.emit e).snapF = s.snapF := rfl
@[simp] theorem State.emit_snapFValid (s : State) (e : DispEvent) : (s.emit e).snapFValid = s.snapFValid := rfl
@[simp] theorem State.emit_snapI (s : State) (e : DispEvent) : (s.emit e).snapI = s.snapI := rfl
@[simp] theorem State.emit_snapIValid (s : State) (e : DispEvent) : (s.emit e).snapIValid = s.snapIValid := rfl
@[simp] theorem State.emit_holdF (s : State) (e : DispEvent) : (s.emit e).holdF = s.holdF := rfl
@[simp] theorem State.emit_holdI (s : State) (e : DispEvent) : (s.emit e).holdI = s.holdI := rfl
@[simp] theorem State.emit_txbuf (s : State) (e : DispEvent) : (s.emit e).txbuf = s.txbuf := rfl
@[simp] theorem State.emit_seq (s : State) (e : DispEvent) : (s.emit e).seq = s.seq := rfl
@[simp] theorem State.emit_pins (s : State) (e : DispEvent) : (s.emit e).pins = s.pins := rfl
@[simp] theorem State.emit_aPrev (s : State) (e : DispEvent) : (s.emit e).aPrev = s.aPrev := rfl
@[simp] theorem State.emit_bPrev (s : State) (e : DispEvent) : (s.emit e).bPrev = s.bPrev := rfl
@[simp] theorem State.emit_btnPrev (s : State) (e : DispEvent) : (s.emit e).btnPrev = s.btnPrev := rfl
@[simp] theorem State.emit_pinlog (s : State) (e : DispEvent) : (s.emit e).pinlog = s.pinlog := rfl
@[simp] theorem State.emit_displog (s : State) (e : DispEvent) : (s.emit e).displog = s.displog ++ [e] := rfl
@[simp] theorem State.emit_rx (s : State) (e : DispEvent) : (s.emit e).rx = s.rx := rfl
@[simp] theorem State.emit_stim (s : State) (e : DispEvent) : (s.emit e).stim = s.stim := rfl
@[simp] theorem State.emit_codec (s : State) (e : DispEvent) : (s.emit e).codec = s.codec := rfl
@[simp] theorem State.emit_runs (s : State) (e : DispEvent) : (s.emit e).runs = s.runs := rfl
@[simp] theorem State.emit_draws (s : State) (e : DispEvent) : (s.emit e).draws = s.draws := rfl

/-! ### the next move taken -/

@[simp] theorem State.pop_freq (s : State) : (s.pop).freq = s.freq := rfl
@[simp] theorem State.pop_inc (s : State) : (s.pop).inc = s.inc := rfl
@[simp] theorem State.pop_latchA (s : State) : (s.pop).latchA = s.latchA := rfl
@[simp] theorem State.pop_latchB (s : State) : (s.pop).latchB = s.latchB := rfl
@[simp] theorem State.pop_snapF (s : State) : (s.pop).snapF = s.snapF := rfl
@[simp] theorem State.pop_snapFValid (s : State) : (s.pop).snapFValid = s.snapFValid := rfl
@[simp] theorem State.pop_snapI (s : State) : (s.pop).snapI = s.snapI := rfl
@[simp] theorem State.pop_snapIValid (s : State) : (s.pop).snapIValid = s.snapIValid := rfl
@[simp] theorem State.pop_holdF (s : State) : (s.pop).holdF = s.holdF := rfl
@[simp] theorem State.pop_holdI (s : State) : (s.pop).holdI = s.holdI := rfl
@[simp] theorem State.pop_txbuf (s : State) : (s.pop).txbuf = s.txbuf := rfl
@[simp] theorem State.pop_seq (s : State) : (s.pop).seq = s.seq := rfl
@[simp] theorem State.pop_pins (s : State) : (s.pop).pins = s.pins := rfl
@[simp] theorem State.pop_aPrev (s : State) : (s.pop).aPrev = s.aPrev := rfl
@[simp] theorem State.pop_bPrev (s : State) : (s.pop).bPrev = s.bPrev := rfl
@[simp] theorem State.pop_btnPrev (s : State) : (s.pop).btnPrev = s.btnPrev := rfl
@[simp] theorem State.pop_pinlog (s : State) : (s.pop).pinlog = s.pinlog := rfl
@[simp] theorem State.pop_displog (s : State) : (s.pop).displog = s.displog := rfl
@[simp] theorem State.pop_rx (s : State) : (s.pop).rx = s.rx := rfl
@[simp] theorem State.pop_stim (s : State) : (s.pop).stim = s.stim.tail := rfl
@[simp] theorem State.pop_codec (s : State) : (s.pop).codec = s.codec := rfl
@[simp] theorem State.pop_runs (s : State) : (s.pop).runs = s.runs := rfl
@[simp] theorem State.pop_draws (s : State) : (s.pop).draws = s.draws := rfl

/-! ### a move put first -/

@[simp] theorem State.offer_freq (s : State) (m : Move) : (s.offer m).freq = s.freq := rfl
@[simp] theorem State.offer_inc (s : State) (m : Move) : (s.offer m).inc = s.inc := rfl
@[simp] theorem State.offer_latchA (s : State) (m : Move) : (s.offer m).latchA = s.latchA := rfl
@[simp] theorem State.offer_latchB (s : State) (m : Move) : (s.offer m).latchB = s.latchB := rfl
@[simp] theorem State.offer_snapF (s : State) (m : Move) : (s.offer m).snapF = s.snapF := rfl
@[simp] theorem State.offer_snapFValid (s : State) (m : Move) : (s.offer m).snapFValid = s.snapFValid := rfl
@[simp] theorem State.offer_snapI (s : State) (m : Move) : (s.offer m).snapI = s.snapI := rfl
@[simp] theorem State.offer_snapIValid (s : State) (m : Move) : (s.offer m).snapIValid = s.snapIValid := rfl
@[simp] theorem State.offer_holdF (s : State) (m : Move) : (s.offer m).holdF = s.holdF := rfl
@[simp] theorem State.offer_holdI (s : State) (m : Move) : (s.offer m).holdI = s.holdI := rfl
@[simp] theorem State.offer_txbuf (s : State) (m : Move) : (s.offer m).txbuf = s.txbuf := rfl
@[simp] theorem State.offer_seq (s : State) (m : Move) : (s.offer m).seq = s.seq := rfl
@[simp] theorem State.offer_pins (s : State) (m : Move) : (s.offer m).pins = s.pins := rfl
@[simp] theorem State.offer_aPrev (s : State) (m : Move) : (s.offer m).aPrev = s.aPrev := rfl
@[simp] theorem State.offer_bPrev (s : State) (m : Move) : (s.offer m).bPrev = s.bPrev := rfl
@[simp] theorem State.offer_btnPrev (s : State) (m : Move) : (s.offer m).btnPrev = s.btnPrev := rfl
@[simp] theorem State.offer_pinlog (s : State) (m : Move) : (s.offer m).pinlog = s.pinlog := rfl
@[simp] theorem State.offer_displog (s : State) (m : Move) : (s.offer m).displog = s.displog := rfl
@[simp] theorem State.offer_rx (s : State) (m : Move) : (s.offer m).rx = s.rx := rfl
@[simp] theorem State.offer_stim (s : State) (m : Move) : (s.offer m).stim = m :: s.stim := rfl
@[simp] theorem State.offer_codec (s : State) (m : Move) : (s.offer m).codec = s.codec := rfl
@[simp] theorem State.offer_runs (s : State) (m : Move) : (s.offer m).runs = s.runs := rfl
@[simp] theorem State.offer_draws (s : State) (m : Move) : (s.offer m).draws = s.draws := rfl

/-! ### the sample registers -/

@[simp] theorem State.setPrevious_freq (s : State) (l : InputPins) : (s.setPrevious l).freq = s.freq := rfl
@[simp] theorem State.setPrevious_inc (s : State) (l : InputPins) : (s.setPrevious l).inc = s.inc := rfl
@[simp] theorem State.setPrevious_latchA (s : State) (l : InputPins) : (s.setPrevious l).latchA = s.latchA := rfl
@[simp] theorem State.setPrevious_latchB (s : State) (l : InputPins) : (s.setPrevious l).latchB = s.latchB := rfl
@[simp] theorem State.setPrevious_snapF (s : State) (l : InputPins) : (s.setPrevious l).snapF = s.snapF := rfl
@[simp] theorem State.setPrevious_snapFValid (s : State) (l : InputPins) :
    (s.setPrevious l).snapFValid = s.snapFValid := rfl
@[simp] theorem State.setPrevious_snapI (s : State) (l : InputPins) : (s.setPrevious l).snapI = s.snapI := rfl
@[simp] theorem State.setPrevious_snapIValid (s : State) (l : InputPins) :
    (s.setPrevious l).snapIValid = s.snapIValid := rfl
@[simp] theorem State.setPrevious_holdF (s : State) (l : InputPins) : (s.setPrevious l).holdF = s.holdF := rfl
@[simp] theorem State.setPrevious_holdI (s : State) (l : InputPins) : (s.setPrevious l).holdI = s.holdI := rfl
@[simp] theorem State.setPrevious_txbuf (s : State) (l : InputPins) : (s.setPrevious l).txbuf = s.txbuf := rfl
@[simp] theorem State.setPrevious_seq (s : State) (l : InputPins) : (s.setPrevious l).seq = s.seq := rfl
@[simp] theorem State.setPrevious_pins (s : State) (l : InputPins) : (s.setPrevious l).pins = s.pins := rfl
@[simp] theorem State.setPrevious_aPrev (s : State) (l : InputPins) : (s.setPrevious l).aPrev = l.encA := rfl
@[simp] theorem State.setPrevious_bPrev (s : State) (l : InputPins) : (s.setPrevious l).bPrev = l.encB := rfl
@[simp] theorem State.setPrevious_btnPrev (s : State) (l : InputPins) : (s.setPrevious l).btnPrev = l.btnN := rfl
@[simp] theorem State.setPrevious_pinlog (s : State) (l : InputPins) : (s.setPrevious l).pinlog = s.pinlog := rfl
@[simp] theorem State.setPrevious_displog (s : State) (l : InputPins) : (s.setPrevious l).displog = s.displog := rfl
@[simp] theorem State.setPrevious_rx (s : State) (l : InputPins) : (s.setPrevious l).rx = s.rx := rfl
@[simp] theorem State.setPrevious_stim (s : State) (l : InputPins) : (s.setPrevious l).stim = s.stim := rfl
@[simp] theorem State.setPrevious_codec (s : State) (l : InputPins) : (s.setPrevious l).codec = s.codec := rfl
@[simp] theorem State.setPrevious_runs (s : State) (l : InputPins) : (s.setPrevious l).runs = s.runs := rfl
@[simp] theorem State.setPrevious_draws (s : State) (l : InputPins) : (s.setPrevious l).draws = s.draws := rfl

/-! ### `POLL_F` where the frequency changed -/

@[simp] theorem State.captureFreq_freq (s : State) : (s.captureFreq).freq = wrap32 (clampFrequency s.freqValue) := rfl
@[simp] theorem State.captureFreq_inc (s : State) : (s.captureFreq).inc = s.inc := rfl
@[simp] theorem State.captureFreq_latchA (s : State) : (s.captureFreq).latchA = s.latchA := rfl
@[simp] theorem State.captureFreq_latchB (s : State) : (s.captureFreq).latchB = s.latchB := rfl
@[simp] theorem State.captureFreq_snapF (s : State) : (s.captureFreq).snapF = s.snapF := rfl
@[simp] theorem State.captureFreq_snapFValid (s : State) : (s.captureFreq).snapFValid = s.snapFValid := rfl
@[simp] theorem State.captureFreq_snapI (s : State) : (s.captureFreq).snapI = s.snapI := rfl
@[simp] theorem State.captureFreq_snapIValid (s : State) : (s.captureFreq).snapIValid = s.snapIValid := rfl
@[simp] theorem State.captureFreq_holdF (s : State) :
    (s.captureFreq).holdF = wrap32 (clampFrequency s.freqValue) := rfl
@[simp] theorem State.captureFreq_holdI (s : State) : (s.captureFreq).holdI = s.holdI := rfl
@[simp] theorem State.captureFreq_txbuf (s : State) :
    (s.captureFreq).txbuf = frameOf (encodeWord (Config.freeTuningWord s.draws) (clampFrequency s.freqValue)) := rfl
@[simp] theorem State.captureFreq_seq (s : State) : (s.captureFreq).seq = .txBit 0 0#2 := rfl
@[simp] theorem State.captureFreq_pins (s : State) : (s.captureFreq).pins = s.pins := rfl
@[simp] theorem State.captureFreq_aPrev (s : State) : (s.captureFreq).aPrev = s.aPrev := rfl
@[simp] theorem State.captureFreq_bPrev (s : State) : (s.captureFreq).bPrev = s.bPrev := rfl
@[simp] theorem State.captureFreq_btnPrev (s : State) : (s.captureFreq).btnPrev = s.btnPrev := rfl
@[simp] theorem State.captureFreq_pinlog (s : State) : (s.captureFreq).pinlog = s.pinlog := rfl
@[simp] theorem State.captureFreq_displog (s : State) : (s.captureFreq).displog = s.displog := rfl
@[simp] theorem State.captureFreq_rx (s : State) : (s.captureFreq).rx = s.rx := rfl
@[simp] theorem State.captureFreq_stim (s : State) : (s.captureFreq).stim = s.stim := rfl
@[simp] theorem State.captureFreq_codec (s : State) : (s.captureFreq).codec = s.codec := rfl
@[simp] theorem State.captureFreq_runs (s : State) : (s.captureFreq).runs = s.runs := rfl
@[simp] theorem State.captureFreq_draws (s : State) : (s.captureFreq).draws = s.draws := rfl

/-! ### `POLL_I` where the step size changed -/

@[simp] theorem State.captureInc_freq (s : State) : (s.captureInc).freq = s.freq := rfl
@[simp] theorem State.captureInc_inc (s : State) : (s.captureInc).inc = trunc20 (wrapIncrement s.incValue) := rfl
@[simp] theorem State.captureInc_latchA (s : State) : (s.captureInc).latchA = s.latchA := rfl
@[simp] theorem State.captureInc_latchB (s : State) : (s.captureInc).latchB = s.latchB := rfl
@[simp] theorem State.captureInc_snapF (s : State) : (s.captureInc).snapF = s.snapF := rfl
@[simp] theorem State.captureInc_snapFValid (s : State) : (s.captureInc).snapFValid = s.snapFValid := rfl
@[simp] theorem State.captureInc_snapI (s : State) : (s.captureInc).snapI = s.snapI := rfl
@[simp] theorem State.captureInc_snapIValid (s : State) : (s.captureInc).snapIValid = s.snapIValid := rfl
@[simp] theorem State.captureInc_holdF (s : State) : (s.captureInc).holdF = s.holdF := rfl
@[simp] theorem State.captureInc_holdI (s : State) : (s.captureInc).holdI = trunc20 (wrapIncrement s.incValue) := rfl
@[simp] theorem State.captureInc_txbuf (s : State) : (s.captureInc).txbuf = s.txbuf := rfl
@[simp] theorem State.captureInc_seq (s : State) : (s.captureInc).seq = .phase 12#4 := rfl
@[simp] theorem State.captureInc_pins (s : State) : (s.captureInc).pins = s.pins := rfl
@[simp] theorem State.captureInc_aPrev (s : State) : (s.captureInc).aPrev = s.aPrev := rfl
@[simp] theorem State.captureInc_bPrev (s : State) : (s.captureInc).bPrev = s.bPrev := rfl
@[simp] theorem State.captureInc_btnPrev (s : State) : (s.captureInc).btnPrev = s.btnPrev := rfl
@[simp] theorem State.captureInc_pinlog (s : State) : (s.captureInc).pinlog = s.pinlog := rfl
@[simp] theorem State.captureInc_displog (s : State) : (s.captureInc).displog = s.displog := rfl
@[simp] theorem State.captureInc_rx (s : State) : (s.captureInc).rx = s.rx := rfl
@[simp] theorem State.captureInc_stim (s : State) : (s.captureInc).stim = s.stim := rfl
@[simp] theorem State.captureInc_codec (s : State) : (s.captureInc).codec = s.codec := rfl
@[simp] theorem State.captureInc_runs (s : State) : (s.captureInc).runs = s.runs := rfl
@[simp] theorem State.captureInc_draws (s : State) : (s.captureInc).draws = s.draws := rfl

/-! ### a pin write -/

@[simp] theorem State.writePin_freq (s : State) (p : Pin) (v : Bool) : (s.writePin p v).freq = s.freq := rfl
@[simp] theorem State.writePin_inc (s : State) (p : Pin) (v : Bool) : (s.writePin p v).inc = s.inc := rfl
@[simp] theorem State.writePin_latchA (s : State) (p : Pin) (v : Bool) : (s.writePin p v).latchA = s.latchA := rfl
@[simp] theorem State.writePin_latchB (s : State) (p : Pin) (v : Bool) : (s.writePin p v).latchB = s.latchB := rfl
@[simp] theorem State.writePin_snapF (s : State) (p : Pin) (v : Bool) : (s.writePin p v).snapF = s.snapF := rfl
@[simp] theorem State.writePin_snapFValid (s : State) (p : Pin) (v : Bool) :
    (s.writePin p v).snapFValid = s.snapFValid := rfl
@[simp] theorem State.writePin_snapI (s : State) (p : Pin) (v : Bool) : (s.writePin p v).snapI = s.snapI := rfl
@[simp] theorem State.writePin_snapIValid (s : State) (p : Pin) (v : Bool) :
    (s.writePin p v).snapIValid = s.snapIValid := rfl
@[simp] theorem State.writePin_holdF (s : State) (p : Pin) (v : Bool) : (s.writePin p v).holdF = s.holdF := rfl
@[simp] theorem State.writePin_holdI (s : State) (p : Pin) (v : Bool) : (s.writePin p v).holdI = s.holdI := rfl
@[simp] theorem State.writePin_txbuf (s : State) (p : Pin) (v : Bool) : (s.writePin p v).txbuf = s.txbuf := rfl
@[simp] theorem State.writePin_seq (s : State) (p : Pin) (v : Bool) : (s.writePin p v).seq = s.seq := rfl
@[simp] theorem State.writePin_pins (s : State) (p : Pin) (v : Bool) : (s.writePin p v).pins = s.pins.set p v := rfl
@[simp] theorem State.writePin_aPrev (s : State) (p : Pin) (v : Bool) : (s.writePin p v).aPrev = s.aPrev := rfl
@[simp] theorem State.writePin_bPrev (s : State) (p : Pin) (v : Bool) : (s.writePin p v).bPrev = s.bPrev := rfl
@[simp] theorem State.writePin_btnPrev (s : State) (p : Pin) (v : Bool) : (s.writePin p v).btnPrev = s.btnPrev := rfl
@[simp] theorem State.writePin_pinlog (s : State) (p : Pin) (v : Bool) :
    (s.writePin p v).pinlog = s.pinlog ++ [{ pin := p, level := v }] := rfl
@[simp] theorem State.writePin_displog (s : State) (p : Pin) (v : Bool) : (s.writePin p v).displog = s.displog := rfl
@[simp] theorem State.writePin_rx (s : State) (p : Pin) (v : Bool) :
    (s.writePin p v).rx = s.rx.onWrite s.runs s.pinlog.length s.pins { pin := p, level := v } := rfl
@[simp] theorem State.writePin_stim (s : State) (p : Pin) (v : Bool) : (s.writePin p v).stim = s.stim := rfl
@[simp] theorem State.writePin_codec (s : State) (p : Pin) (v : Bool) : (s.writePin p v).codec = s.codec := rfl
@[simp] theorem State.writePin_runs (s : State) (p : Pin) (v : Bool) : (s.writePin p v).runs = s.runs := rfl
@[simp] theorem State.writePin_draws (s : State) (p : Pin) (v : Bool) : (s.writePin p v).draws = s.draws := rfl

/-! ### reset -/

@[simp] theorem State.resetBlock_freq (s : State) (l : InputPins) : (s.resetBlock l).freq = State.reset.freq := rfl
@[simp] theorem State.resetBlock_inc (s : State) (l : InputPins) : (s.resetBlock l).inc = State.reset.inc := rfl
@[simp] theorem State.resetBlock_latchA (s : State) (l : InputPins) :
    (s.resetBlock l).latchA = State.reset.latchA := rfl
@[simp] theorem State.resetBlock_latchB (s : State) (l : InputPins) :
    (s.resetBlock l).latchB = State.reset.latchB := rfl
@[simp] theorem State.resetBlock_snapF (s : State) (l : InputPins) : (s.resetBlock l).snapF = State.reset.snapF := rfl
@[simp] theorem State.resetBlock_snapFValid (s : State) (l : InputPins) :
    (s.resetBlock l).snapFValid = State.reset.snapFValid := rfl
@[simp] theorem State.resetBlock_snapI (s : State) (l : InputPins) : (s.resetBlock l).snapI = State.reset.snapI := rfl
@[simp] theorem State.resetBlock_snapIValid (s : State) (l : InputPins) :
    (s.resetBlock l).snapIValid = State.reset.snapIValid := rfl
@[simp] theorem State.resetBlock_holdF (s : State) (l : InputPins) : (s.resetBlock l).holdF = State.reset.holdF := rfl
@[simp] theorem State.resetBlock_holdI (s : State) (l : InputPins) : (s.resetBlock l).holdI = State.reset.holdI := rfl
@[simp] theorem State.resetBlock_txbuf (s : State) (l : InputPins) : (s.resetBlock l).txbuf = State.reset.txbuf := rfl
@[simp] theorem State.resetBlock_seq (s : State) (l : InputPins) : (s.resetBlock l).seq = State.reset.seq := rfl
@[simp] theorem State.resetBlock_pins (s : State) (l : InputPins) : (s.resetBlock l).pins = State.reset.pins := rfl
@[simp] theorem State.resetBlock_aPrev (s : State) (l : InputPins) : (s.resetBlock l).aPrev = l.encA := rfl
@[simp] theorem State.resetBlock_bPrev (s : State) (l : InputPins) : (s.resetBlock l).bPrev = l.encB := rfl
@[simp] theorem State.resetBlock_btnPrev (s : State) (l : InputPins) : (s.resetBlock l).btnPrev = l.btnN := rfl
@[simp] theorem State.resetBlock_pinlog (s : State) (l : InputPins) :
    (s.resetBlock l).pinlog = State.reset.pinlog := rfl
@[simp] theorem State.resetBlock_displog (s : State) (l : InputPins) :
    (s.resetBlock l).displog = State.reset.displog := rfl
@[simp] theorem State.resetBlock_rx (s : State) (l : InputPins) : (s.resetBlock l).rx = State.reset.rx := rfl
@[simp] theorem State.resetBlock_stim (s : State) (l : InputPins) : (s.resetBlock l).stim = s.stim := rfl
@[simp] theorem State.resetBlock_codec (s : State) (l : InputPins) : (s.resetBlock l).codec = s.codec := rfl
@[simp] theorem State.resetBlock_runs (s : State) (l : InputPins) : (s.resetBlock l).runs = s.runs + 1 := rfl
@[simp] theorem State.resetBlock_draws (s : State) (l : InputPins) : (s.resetBlock l).draws = s.draws := rfl

end Sys2Proof.Machine
end

