-- ==== Sys2Proof/Laws/Ops.lean ====
section
/-! SUPPORT. One lemma for each shared operation that says once everything it can do: sequencing, the output pins, the
receiver's reaction, the next move and its code, the front-end's events. -/

namespace Sys2Proof.Machine

/-! ### sequencing -/

@[simp] theorem andThen_next (s : State) (f : State → Host.Outcome State Fault Refusal) :
    andThen (.next s) f = f s := rfl

/-- A sequence that answers a next state did so at its first part and then at its second. -/
theorem andThen_eq_next {o : Host.Outcome State Fault Refusal} {f : State → Host.Outcome State Fault Refusal}
    {t : State} (h : andThen o f = .next t) : ∃ u, o = .next u ∧ f u = .next t := by
  cases o with
  | next u => exact ⟨u, rfl, h⟩
  | fault r => cases h
  | refused r => cases h

@[simp] theorem execAll_nil (s : State) : execAll [] s = .next s := rfl

@[simp] theorem execAll_cons (i : Instr) (is : List Instr) (s : State) :
    execAll (i :: is) s = andThen (exec i s) (execAll is) := rfl

/-- A property that every listed operation keeps is kept by performing them one after another. -/
theorem execAll_keeps {P : State → Prop} :
    ∀ (is : List Instr) (s t : State), (∀ i ∈ is, ∀ a b, P a → exec i a = .next b → P b) → P s →
      execAll is s = .next t → P t
  | [], s, t, _, hs, h => by cases h; exact hs
  | i :: is, s, t, keep, hs, h => by
    obtain ⟨u, hu, ht⟩ := andThen_eq_next h
    exact execAll_keeps is u t (fun j hj => keep j (List.mem_cons_of_mem i hj))
      (keep i (List.mem_cons_self ..) s u hs hu) ht

/-! ### output pins -/

@[simp] theorem Pins.get_set_same (p : Pins) (pin : Pin) (v : Bool) : (p.set pin v).get pin = v := by
  cases pin <;> rfl

theorem Pins.get_set_other (p : Pins) {pin other : Pin} (v : Bool) (h : other ≠ pin) :
    (p.set pin v).get other = p.get other := by
  cases pin <;> cases other <;> first | rfl | exact absurd rfl h

/-- Replaying a log that ends in one more entry: the entry's write on what the log before it leaves. -/
theorem Receiver.replayFrom_append (run : Nat) (w : PinWrite) :
    ∀ (log : List PinWrite) (place : Nat) (p : Pins) (r : Receiver),
      Receiver.replayFrom run place p r (log ++ [w]) =
        (let q := Receiver.replayFrom run place p r log
         (q.1.set w.pin w.level, q.2.onWrite run (place + log.length) q.1 w))
  | [], place, p, r => rfl
  | v :: log, place, p, r => by
    have := Receiver.replayFrom_append run w log (place + 1) (p.set v.pin v.level) (r.onWrite run place p v)
    simp only [List.cons_append, Receiver.replayFrom, this, List.length_cons]
    rw [show place + 1 + log.length = place + (log.length + 1) by omega]

/-! ### the receiver -/

/-- Once bad, a receiver stays bad through every write (R155). -/
theorem Receiver.onWrite_bad (r : Receiver) (run place : Nat) (p : Pins) (w : PinWrite) (h : r.bad = true) :
    (r.onWrite run place p w).bad = true := by
  simp [Receiver.onWrite, h, Receiver.lost]

/-- A write that lowers a pin, or raises one already high, changes nothing in a receiver that is not bad (R151). -/
theorem Receiver.onWrite_notRising (r : Receiver) (run place : Nat) (p : Pins) (w : PinWrite)
    (hr : r.bad = false) (h : w.level = false ∨ p.get w.pin = true) : r.onWrite run place p w = r := by
  rcases h with h | h <;> simp [Receiver.onWrite, hr, h]

/-! ### the next move and its code -/

@[simp] theorem State.nextMove_offer (s : State) (m : Move) : (s.offer m).nextMove = m := rfl

@[simp] theorem State.pop_offer (s : State) (m : Move) : (s.offer m).pop = s := rfl

theorem State.nextMove_nil {s : State} (h : s.stim = []) : s.nextMove = .turn := by
  simp [State.nextMove, h]

theorem State.nextMove_cons {s : State} {m : Move} {ms : List Move} (h : s.stim = m :: ms) : s.nextMove = m := by
  simp [State.nextMove, h]

theorem State.pop_nil {s : State} (h : s.stim = []) : s.pop = s := by
  cases s; simp_all [State.pop]

/-- With no move to come, the next step decodes the sequencer position. -/
theorem State.fetch_nil {s : State} (h : s.stim = []) : s.fetch = some (.position s.seq.code) := by
  simp [State.fetch, State.nextMove_nil h]

/-! ### positions -/

@[simp] theorem positionCode_phase (ph : BitVec 4) (k : BitVec 6) (s : BitVec 2) :
    positionPhase (positionCode ph k s) = ph := by
  revert ph k s; decide +kernel

@[simp] theorem positionCode_bit (ph : BitVec 4) (k : BitVec 6) (s : BitVec 2) :
    positionBit (positionCode ph k s) = k := by
  revert ph k s; decide +kernel

@[simp] theorem positionCode_step (ph : BitVec 4) (k : BitVec 6) (s : BitVec 2) :
    positionStep (positionCode ph k s) = s := by
  revert ph k s; decide +kernel

/-- Every 12-bit code is made of its three fields. -/
theorem positionCode_fields (c : PositionCode) :
    positionCode (positionPhase c) (positionBit c) (positionStep c) = c := by
  revert c; decide +kernel

@[simp] theorem SeqPos.ofCode_code (q : SeqPos) : SeqPos.ofCode q.code = q := by
  simp [SeqPos.ofCode, SeqPos.code]

@[simp] theorem SeqPos.code_ofCode (c : PositionCode) : (SeqPos.ofCode c).code = c := positionCode_fields c

/-- A position whose code has the given fields is made of them. -/
theorem SeqPos.eq_of_code {q : SeqPos} {ph : BitVec 4} {k : BitVec 6} {s : BitVec 2}
    (h : Code.position (positionCode ph k s) = .position q.code) : q = { ph := ph, k := k, s := s } := by
  injection h with h
  rw [← SeqPos.ofCode_code q, ← h]
  simp [SeqPos.ofCode]

/-! ### the front-end -/

/-- Every event of a sample is an event operation. -/
theorem sampleEvents_agent (order : List Source) (before now : InputPins) :
    ∀ i ∈ sampleEvents order before now, i.agent = .eventUnit := by
  intro i hi
  obtain ⟨src, -, h⟩ := List.mem_flatMap.mp hi
  cases src <;> simp only [sourceEvents] at h <;> split at h <;> try split at h
  all_goals simp_all [Instr.agent]

end Sys2Proof.Machine
end

