-- ==== Sys2Proof/Laws/PerInstr.lean ====
section
/-! SUPPORT. The family `EncodesItsRow`: every well-formed operation's code carries the width, the mask and the match of
its row of `spec/opcode_table.json`. -/

namespace Sys2Proof.Laws.EncodesItsRow

/-- The width of a row in bits, its mask and its match, as `spec/opcode_table.json` gives them. -/
structure Row where
  width : Nat
  mask : Nat
  pattern : Nat
  deriving DecidableEq, Repr

/-- The row of each operation. -/
def row : Instr → Row
  | .chaLow => { width := 4, mask := 0xF, pattern := 0x8 }
  | .chaHigh => { width := 4, mask := 0xF, pattern := 0x9 }
  | .chbLow => { width := 4, mask := 0xF, pattern := 0xA }
  | .chbHigh => { width := 4, mask := 0xF, pattern := 0xB }
  | .btnPress => { width := 4, mask := 0xF, pattern := 0xC }
  | .initRstHi => { width := 12, mask := 0xFFF, pattern := 0x000 }
  | .initRstLo => { width := 12, mask := 0xFFF, pattern := 0x100 }
  | .initClkHi => { width := 12, mask := 0xFFF, pattern := 0x200 }
  | .initClkLo => { width := 12, mask := 0xFFF, pattern := 0x300 }
  | .initUpdHi => { width := 12, mask := 0xFFF, pattern := 0x400 }
  | .initUpdLo => { width := 12, mask := 0xFFF, pattern := 0x500 }
  | .pollF => { width := 12, mask := 0xFFF, pattern := 0x600 }
  | .txData _ => { width := 12, mask := 0xF03, pattern := 0x700 }
  | .txClkHi _ => { width := 12, mask := 0xF03, pattern := 0x701 }
  | .txClkLo _ => { width := 12, mask := 0xF03, pattern := 0x702 }
  | .txUpdHi => { width := 12, mask := 0xFFF, pattern := 0x800 }
  | .txUpdLo => { width := 12, mask := 0xFFF, pattern := 0x900 }
  | .dispF => { width := 12, mask := 0xFFF, pattern := 0xA00 }
  | .pollI => { width := 12, mask := 0xFFF, pattern := 0xB00 }
  | .dispI => { width := 12, mask := 0xFFF, pattern := 0xC00 }
  | .encode _ => { width := 40, mask := 0xFF00000000, pattern := 0x0000000000 }
  | .decode _ => { width := 32, mask := 0x00000000, pattern := 0x00000000 }

/-- A well-formed operation's code has its row's width, in whole bytes, and agrees with its row's match under its row's
mask. -/
def Statement (i : Instr) : Prop :=
  i.wellFormed = true →
    codeBits (encode i) = ((row i).width + 7) / 8 * 8 ∧ codeNumber (encode i) &&& (row i).mask = (row i).pattern

theorem chaLow : Statement .chaLow := fun _ => by decide
theorem chaHigh : Statement .chaHigh := fun _ => by decide
theorem chbLow : Statement .chbLow := fun _ => by decide
theorem chbHigh : Statement .chbHigh := fun _ => by decide
theorem btnPress : Statement .btnPress := fun _ => by decide
theorem initRstHi : Statement .initRstHi := fun _ => by decide
theorem initRstLo : Statement .initRstLo := fun _ => by decide
theorem initClkHi : Statement .initClkHi := fun _ => by decide
theorem initClkLo : Statement .initClkLo := fun _ => by decide
theorem initUpdHi : Statement .initUpdHi := fun _ => by decide
theorem initUpdLo : Statement .initUpdLo := fun _ => by decide
theorem pollF : Statement .pollF := fun _ => by decide
theorem txData (k : Fin 40) : Statement (.txData k) := fun _ => by revert k; decide
theorem txClkHi (k : Fin 40) : Statement (.txClkHi k) := fun _ => by revert k; decide
theorem txClkLo (k : Fin 40) : Statement (.txClkLo k) := fun _ => by revert k; decide
theorem txUpdHi : Statement .txUpdHi := fun _ => by decide
theorem txUpdLo : Statement .txUpdLo := fun _ => by decide
theorem dispF : Statement .dispF := fun _ => by decide
theorem pollI : Statement .pollI := fun _ => by decide
theorem dispI : Statement .dispI := fun _ => by decide

theorem encode (f : Int) : Statement (.encode f) := fun _ => by
  refine ⟨by simp [codeBits, Sys2Proof.encode, row], ?_⟩
  apply Nat.eq_of_testBit_eq
  intro j
  have h := Machine.frameOf_getLsbD (Machine.tuningWord f.toNat) j
  have mask : (0xFF00000000 : Nat) = (2 ^ 8 - 1) * 2 ^ 32 := by norm_num
  simp only [Sys2Proof.encode, codeNumber, row, Nat.testBit_and, BitVec.testBit_toNat, h, mask,
    Nat.testBit_mul_two_pow, Nat.zero_testBit]
  by_cases hj : j < 32
  · simp [hj, show ¬ 32 ≤ j by omega]
  · simp [hj]

theorem decode (w : TuningWord) : Statement (.decode w) := fun _ => by
  simp [codeBits, Sys2Proof.encode, row]

end Sys2Proof.Laws.EncodesItsRow
end

