-- ==== Sys2Proof/Laws/Step.lean ====
section
/-! SUPPORT. What a step can do, said once: the inversion of `step`, and the lemmas for each kind of move. -/

namespace Sys2Proof.Machine

/-- If running a code answers a next state, the code is idle and nothing changed, or it selects an operation that
answered it. -/
theorem runCode_eq_next {c : Code} {s t : State} (h : runCode c s = .next t) :
    (decode c = .idle ∧ t = s) ∨ ∃ i, decode c = .op i ∧ exec i s = .next t := by
  unfold runCode at h
  split at h
  · exact .inr ⟨_, by assumption, h⟩
  · cases h; exact .inl ⟨by assumption, rfl⟩
  all_goals cases h

/-- Everything a step that answers a next state can have done. -/
theorem step_eq_next {s t : State} (h : step s = .next t) :
    (∃ l, s.nextMove = .rst l ∧ t = s.pop.resetBlock l) ∨
    s.seq.legal = true ∧
      ((∃ c, s.fetch = some c ∧ decode c = .idle ∧ t = s.pop) ∨
       (∃ c i, s.fetch = some c ∧ decode c = .op i ∧ exec i s.pop = .next t) ∨
       (∃ l, s.nextMove = .sample l ∧ samplePins l s.pop = .next t)) := by
  have code : ∀ c, s.fetch = some c → s.seq.legal = true → runCode c s.pop = .next t →
      s.seq.legal = true ∧
        ((∃ c, s.fetch = some c ∧ decode c = .idle ∧ t = s.pop) ∨
         (∃ c i, s.fetch = some c ∧ decode c = .op i ∧ exec i s.pop = .next t) ∨
         (∃ l, s.nextMove = .sample l ∧ samplePins l s.pop = .next t)) := by
    intro c hc hl hr
    refine ⟨hl, ?_⟩
    rcases runCode_eq_next hr with ⟨hd, ht⟩ | ⟨i, hd, ht⟩
    · exact .inl ⟨c, hc, hd, ht⟩
    · exact .inr (.inl ⟨c, i, hc, hd, ht⟩)
  unfold step perform at h
  split at h
  case h_1 l hm => cases h; exact .inl ⟨l, hm, rfl⟩
  case h_2 ev hm =>
    split at h
    · exact .inr (code _ (by simp [State.fetch, hm]) (by assumption) h)
    · cases h
  case h_3 hm =>
    split at h
    · exact .inr (code _ (by simp [State.fetch, hm]) (by assumption) h)
    · cases h
  case h_4 l hm =>
    split at h
    · exact .inr ⟨by assumption, .inr (.inr ⟨l, hm, h⟩)⟩
    · cases h
  case h_5 f hm =>
    split at h
    · exact .inr (code _ (by simp [State.fetch, hm]) (by assumption) h)
    · cases h
  case h_6 w hm =>
    split at h
    · exact .inr (code _ (by simp [State.fetch, hm]) (by assumption) h)
    · cases h

/-- Where the position is legal and the move selects an operation by a code, the step runs that code. -/
theorem step_eq_runCode {s : State} {c : Code} (hl : s.seq.legal = true) (hc : s.fetch = some c) :
    step s = runCode c s.pop := by
  unfold State.fetch at hc
  split at hc <;> cases hc <;> simp_all [step, perform]

/-- What a code selects, if it is an operation at all, is encoded by that code and performed by that agent. -/
def selectsOwn (d : Decoded) (c : Code) (a : Agent) : Bool :=
  match d with
  | .op i => decide (encode i = c ∧ i.agent = a)
  | _ => true

/-- A position code that selects an operation is that operation's own code, and the sequencer performs it (R83). -/
theorem decodePosition_selects (c : PositionCode) :
    selectsOwn (decodePosition c) (.position c) .sequencer = true := by
  revert c; decide +kernel

/-- An event code that selects an operation is that operation's own code, and the event unit performs it (R81). -/
theorem decodeEvent_selects (ev : EventCode) :
    selectsOwn (decodeEvent ev) (.event ev) .eventUnit = true := by
  revert ev; decide +kernel

/-- A sequencer operation that a step performs is the one `SEQ` selects (R31, R83). -/
theorem fetch_sequencer {s : State} {c : Code} {i : Instr} (hc : s.fetch = some c) (hd : decode c = .op i)
    (hi : i.agent = .sequencer) : encode i = .position s.seq.code := by
  unfold State.fetch at hc
  split at hc
  · cases hc
    have := decodeEvent_selects ‹_›
    simp_all [decode, selectsOwn]
  · cases hc
    have := decodePosition_selects s.seq.code
    simp_all [decode, selectsOwn]
  · cases hc
    simp only [decode, decodeFrame] at hd
    split at hd
    · cases hd; cases hi
    · cases hd
  · cases hc; cases hd; cases hi
  all_goals cases hc

/-- An invariant kept by every operation (a sequencer operation at its own position), by taking a move, by the sample
registers and by reset is kept by every step. -/
theorem step_keeps {P : State → Prop}
    (op : ∀ (i : Instr) (a b : State), P a → exec i a = .next b →
      (i.agent = .sequencer → encode i = .position a.seq.code) → P b)
    (pop : ∀ a : State, P a → P a.pop) (prev : ∀ (a : State) l, P a → P (a.setPrevious l))
    (reset : ∀ (a : State) l, P (a.resetBlock l))
    {s t : State} (hs : P s) (h : step s = .next t) : P t := by
  rcases step_eq_next h with ⟨l, -, rfl⟩ | ⟨-, ⟨c, -, -, rfl⟩ | ⟨c, i, hc, hd, he⟩ | ⟨l, -, he⟩⟩
  · exact reset _ l
  · exact pop s hs
  · exact op i s.pop t (pop s hs) he (fetch_sequencer (s := s) hc hd)
  · refine execAll_keeps _ (s.pop.setPrevious l) t ?_ (prev _ l (pop s hs)) he
    intro i hi a b ha hb
    refine op i a b ha hb (fun hseq => ?_)
    rw [sampleEvents_agent _ _ _ i hi] at hseq
    cases hseq

end Sys2Proof.Machine
end

