-- ==== Sys2Proof/Tests/Slice0.lean ====
section
/-! SUPPORT. The model's own tests: the well-formedness smoke test, codes written out from the spec's encodings, single
steps from the vectors of `95_test_vectors.md`, and for every statement with hypotheses a state that meets them. -/

namespace Sys2Proof.Tests

open Sys2Proof Sys2Proof.Machine

/-! ### well-formedness (R111): the one check refuses an argument on either side of the range -/

theorem test_encode_below_range_ill_formed : (Instr.encode (-1)).wellFormed = false := by decide
theorem test_encode_above_range_ill_formed : (Instr.encode 32000001).wellFormed = false := by decide
theorem test_encode_bounds_well_formed :
    (Instr.encode 0).wellFormed = true ∧ (Instr.encode 32000000).wellFormed = true := by decide

/-! ### codes written out bit by bit from R81, R83, R85 and R88 -/

theorem test_decode_chaLow : decode (.event 0b1000#4) = .op .chaLow := by decide
theorem test_decode_chaHigh : decode (.event 0b1001#4) = .op .chaHigh := by decide
theorem test_decode_chbLow : decode (.event 0b1010#4) = .op .chbLow := by decide
theorem test_decode_chbHigh : decode (.event 0b1011#4) = .op .chbHigh := by decide
theorem test_decode_btnPress : decode (.event 0b1100#4) = .op .btnPress := by decide
theorem test_decode_idle : decode (.event 0b0111#4) = .idle := by decide
theorem test_decode_reserved : decode (.event 0b1101#4) = .reservedEvent := by decide
theorem test_decode_initRstHi : decode (.position 0b0000_000000_00#12) = .op .initRstHi := by decide
theorem test_decode_initRstLo : decode (.position 0b0001_000000_00#12) = .op .initRstLo := by decide
theorem test_decode_initClkHi : decode (.position 0b0010_000000_00#12) = .op .initClkHi := by decide
theorem test_decode_initClkLo : decode (.position 0b0011_000000_00#12) = .op .initClkLo := by decide
theorem test_decode_initUpdHi : decode (.position 0b0100_000000_00#12) = .op .initUpdHi := by decide
theorem test_decode_initUpdLo : decode (.position 0b0101_000000_00#12) = .op .initUpdLo := by decide
theorem test_decode_pollF : decode (.position 0b0110_000000_00#12) = .op .pollF := by decide
theorem test_decode_txData : decode (.position 0b0111_000101_00#12) = .op (.txData 5) := by decide
theorem test_decode_txClkHi : decode (.position 0b0111_100000_01#12) = .op (.txClkHi 32) := by decide
theorem test_decode_txClkLo : decode (.position 0b0111_100111_10#12) = .op (.txClkLo 39) := by decide
theorem test_decode_txUpdHi : decode (.position 0b1000_000000_00#12) = .op .txUpdHi := by decide
theorem test_decode_txUpdLo : decode (.position 0b1001_000000_00#12) = .op .txUpdLo := by decide
theorem test_decode_dispF : decode (.position 0b1010_000000_00#12) = .op .dispF := by decide
theorem test_decode_pollI : decode (.position 0b1011_000000_00#12) = .op .pollI := by decide
theorem test_decode_dispI : decode (.position 0b1100_000000_00#12) = .op .dispI := by decide
theorem test_decode_phase13 : decode (.position 0b1101_000000_00#12) = .illegalPosition := by decide
theorem test_decode_bit40 : decode (.position 0b0111_101000_00#12) = .illegalPosition := by decide
theorem test_decode_step3 : decode (.position 0b0111_000000_11#12) = .illegalPosition := by decide
theorem test_decode_bit_outside_phase7 : decode (.position 0b0110_000001_00#12) = .illegalPosition := by decide
/-- V26: `ENCODE(32,000,000)` has the frame `0x004189374B`. -/
theorem test_decode_frame : decode (.frame 0x004189374B#40) = .op (.encode 32000000) := by decide
theorem test_decode_frame_ctrl : decode (.frame 0x0100008637#40) = .notAFrame := by decide
theorem test_decode_frame_word : decode (.frame 0x0000008638#40) = .notAFrame := by decide
theorem test_decode_word : decode (.word 0x80000000#32) = .op (.decode 0x80000000#32) := by decide
theorem test_table_word_too_wide : decodeTableWord 8 0x18 = none := by decide

/-! ### single operations -/

/-- What an outcome's next state holds, if there is one. -/
def after {α : Type} (o : Host.Outcome State Fault Refusal) (f : State → α) : Option α :=
  match o with
  | .next t => some (f t)
  | .fault _ => none
  | .refused _ => none

/-- A state of the decoder, in the notation `FREQ / INC / LATCH_A LATCH_B` of the vectors. -/
def decoderAt (freq : Int) (inc : Nat) (a b : Bool) : State :=
  { State.reset with freq := wrap32 freq, inc := trunc20 inc, latchA := a, latchB := b }

/-- `FREQ`, `INC` and the latches of an outcome. -/
def decoderOf (o : Host.Outcome State Fault Refusal) : Option (Int × Nat × Bool × Bool) :=
  after o fun t => (sext32 t.freq, zext20 t.inc, t.latchA, t.latchB)

/-- Q1. -/
theorem test_chaHigh_up :
    decoderOf (exec .chaHigh (decoderAt 1000 1000 false false)) = some (2000, 1000, true, false) := by
  decide
/-- Q19. -/
theorem test_chaHigh_wraps : decoderOf (exec .chaHigh (decoderAt 2147000000 1000000 false false)) =
    some (-2146967296, 1000000, true, false) := by decide
/-- Q9. -/
theorem test_chbHigh_down :
    decoderOf (exec .chbHigh (decoderAt 500 1000 false false)) = some (-500, 1000, false, true) := by
  decide
/-- Q2. -/
theorem test_chbHigh_latched :
    decoderOf (exec .chbHigh (decoderAt 2000 1000 true false)) = some (2000, 1000, true, true) := by
  decide
/-- Q3. -/
theorem test_chaLow : decoderOf (exec .chaLow (decoderAt 2000 1000 true true)) = some (2000, 1000, false, true) := by
  decide
/-- Q4. -/
theorem test_chbLow : decoderOf (exec .chbLow (decoderAt 2000 1000 false true)) = some (2000, 1000, false, false) := by
  decide
/-- BP7. -/
theorem test_btnPress_wraps :
    decoderOf (exec .btnPress (decoderAt 1000 1 false false)) = some (1000, 1000000, false, false) := by
  decide
/-- BP11. -/
theorem test_btnPress_truncates : decoderOf (exec .btnPress (decoderAt 1000 1234 false false)) =
    some (1000, 123, false, false) := by decide

/-- A state of the sequencer at a position, with the frame of 1000 Hz in `TXBUF`. -/
def sequencerAt (q : SeqPos) : State := { State.reset with seq := q, txbuf := 0x0000008637#40 }

/-- The pin write an operation logs and the position it leaves (the rows of T4). -/
def writeOf (o : Host.Outcome State Fault Refusal) : Option (List PinWrite × SeqPos) :=
  after o fun t => (t.pinlog, t.seq)

theorem test_txData_bit3 : writeOf (exec (.txData 3) (sequencerAt (.txBit 3 0#2))) =
    some ([{ pin := .ddsData, level := false }], .txBit 3 1#2) := by decide
theorem test_txData_bit15 : writeOf (exec (.txData 15) (sequencerAt (.txBit 15 0#2))) =
    some ([{ pin := .ddsData, level := true }], .txBit 15 1#2) := by decide
theorem test_txClkHi : writeOf (exec (.txClkHi 15) (sequencerAt (.txBit 15 1#2))) =
    some ([{ pin := .ddsWclk, level := true }], .txBit 15 2#2) := by decide
theorem test_txClkLo_next : writeOf (exec (.txClkLo 15) (sequencerAt (.txBit 15 2#2))) =
    some ([{ pin := .ddsWclk, level := false }], .txBit 16 0#2) := by decide
theorem test_txClkLo_last : writeOf (exec (.txClkLo 39) (sequencerAt (.txBit 39 2#2))) =
    some ([{ pin := .ddsWclk, level := false }], .phase 8#4) := by decide
theorem test_txUpdHi : writeOf (exec .txUpdHi (sequencerAt (.phase 8#4))) =
    some ([{ pin := .ddsFqud, level := true }], .phase 9#4) := by decide
theorem test_txUpdLo : writeOf (exec .txUpdLo (sequencerAt (.phase 9#4))) =
    some ([{ pin := .ddsFqud, level := false }], .phase 10#4) := by decide
theorem test_initRstHi : writeOf (exec .initRstHi (sequencerAt (.phase 0#4))) =
    some ([{ pin := .ddsReset, level := true }], .phase 1#4) := by decide
theorem test_initRstLo : writeOf (exec .initRstLo (sequencerAt (.phase 1#4))) =
    some ([{ pin := .ddsReset, level := false }], .phase 2#4) := by decide
theorem test_initClkHi : writeOf (exec .initClkHi (sequencerAt (.phase 2#4))) =
    some ([{ pin := .ddsWclk, level := true }], .phase 3#4) := by decide
theorem test_initClkLo : writeOf (exec .initClkLo (sequencerAt (.phase 3#4))) =
    some ([{ pin := .ddsWclk, level := false }], .phase 4#4) := by decide
theorem test_initUpdHi : writeOf (exec .initUpdHi (sequencerAt (.phase 4#4))) =
    some ([{ pin := .ddsFqud, level := true }], .phase 5#4) := by decide
theorem test_initUpdLo : writeOf (exec .initUpdLo (sequencerAt (.phase 5#4))) =
    some ([{ pin := .ddsFqud, level := false }], .phase 6#4) := by decide

/-- A state at `POLL_F` with a valid snapshot. -/
def pollFAt (freq snap : Int) : State :=
  { State.reset with seq := .phase 6#4, freq := wrap32 freq, snapF := wrap32 snap, snapFValid := true }

/-- K4. -/
theorem test_pollF_clamps :
    after (exec .pollF (pollFAt 33001000 1000)) (fun t => (sext32 t.freq, sext32 t.holdF, t.txbuf, t.seq)) =
    some (32000000, 32000000, 0x004189374B#40, .txBit 0 0#2) := by decide
/-- K2. -/
theorem test_pollF_unchanged : exec .pollF (pollFAt 2000 2000) = .next ((pollFAt 2000 2000).goto (.phase 11#4)) := rfl
/-- K9. -/
theorem test_dispF : after (exec .dispF { State.reset with seq := .phase 10#4, holdF := 2000#32, freq := 3000#32 })
    (fun t => (t.displog, t.snapF, t.snapFValid, t.seq)) = some ([.freq 2000#32], 2000#32, true, .phase 11#4) := by decide
/-- K12. -/
theorem test_pollI_wraps :
    after (exec .pollI { State.reset with seq := .phase 11#4, inc := 0#20, snapI := 1000#20, snapIValid := true })
    (fun t => (zext20 t.inc, zext20 t.holdI, t.seq)) = some (1000000, 1000000, .phase 12#4) := by decide
/-- K11. -/
theorem test_pollI_unchanged :
    after (exec .pollI { State.reset with seq := .phase 11#4, inc := 100#20, snapI := 100#20, snapIValid := true }) (·.seq) =
      some (.phase 6#4) := by decide
/-- K13. -/
theorem test_dispI : after (exec .dispI { State.reset with seq := .phase 12#4, holdI := 100#20 })
    (fun t => (t.displog, t.snapI, t.snapIValid, t.seq)) = some ([.step 100#20], 100#20, true, .phase 6#4) := by decide
/-- V3: `floor`, not `round`. -/
theorem test_encode_floor : after (exec (.encode 2) State.reset) (·.codec) = some (.encoded 68#32 0x0000000044#40) := by
  decide
/-- V13: the corrected value of the source's scenario. -/
theorem test_encode_scenario : after (exec (.encode 2100) State.reset) (·.codec) =
    some (.encoded 72155#32 0x00000119DB#40) := by decide
/-- DV2. -/
theorem test_decode_one : after (exec (.decode 1#32) State.reset) (·.codec) =
    some (.decoded (mkRat 1953125 67108864)) := by decide

/-! ### the front-end (F2, F3) and the receiver (X9) -/

theorem test_sample_order : sampleEvents Config.eventOrder ⟨false, false, true⟩ ⟨true, true, false⟩ =
    [.chaHigh, .chbHigh, .btnPress] := by decide
theorem test_button_rise : sampleEvents Config.eventOrder ⟨false, false, false⟩ ⟨false, false, true⟩ = [] := by decide

/-- A receiver in serial mode with one frame's bits counted. -/
def serialAt (cnt : Nat) : Receiver :=
  { stage := .serial, shift := 0x0000008637#40, cnt := cnt, active := 0#40, activeValid := false, bad := false }

/-- X9: a second high level of the clock is no rising write. -/
theorem test_receiver_not_rising :
    (serialAt 1).onWrite 0 0 ⟨false, true, true, false⟩ ⟨.ddsWclk, true⟩ = serialAt 1 := by decide
/-- X2: a latch after 39 bits. -/
theorem test_receiver_partial : ((serialAt 39).onWrite 0 0 Pins.initial ⟨.ddsFqud, true⟩).bad = true := by decide

/-! ### states that meet the hypotheses of the statements -/

theorem witness_encoded_operation :
    (Instr.txClkLo 39).wellFormed = true ∧ (Instr.encode 32000000).wellFormed = true := by decide
theorem witness_decoded_code : decode (.position 0x79E#12) = .op (.txClkLo 39) := by decide
theorem witness_idle_event : State.reset.seq.legal = true ∧ (0b0111#4 : EventCode).getLsbD 3 = false := by decide
theorem witness_reserved_event : State.reset.seq.legal = true ∧
    ((0b1111#4 : EventCode) = 0b1101#4 ∨ (0b1111#4 : EventCode) = 0b1110#4 ∨ (0b1111#4 : EventCode) = 0b1111#4) := by decide
theorem witness_sample_event :
    Instr.chbLow ∈ sampleEvents Config.eventOrder ⟨false, true, true⟩ ⟨false, false, true⟩ := by decide
theorem witness_illegal_position : (State.reset.goto ⟨7#4, 40#6, 0#2⟩).seq.legal = false ∧
    (State.reset.goto ⟨7#4, 40#6, 0#2⟩).nextMove = .turn := by decide
theorem witness_frame_of_encode : State.reset.seq.legal = true ∧
    (0x004189374B#40 : FrameWord).toNat = 32000000 * 2 ^ 32 / 125000000 := by decide
theorem witness_step_runs : State.reset.seq.legal = true ∧ State.reset.fetch = some (.position 0#12) ∧
    decode (.position 0#12) = .op .initRstHi ∧ State.reset.stim = [] := by decide
theorem witness_stored_operation : State.reset.seq.legal = true ∧ Instr.dispI.wellFormed = true := by decide
theorem witness_interleaving : (State.reset.offer (.sample ⟨true, true, false⟩)).seq.legal = true ∧
    (State.reset.offer (.sample ⟨true, true, false⟩)).nextMove.interleaves = true := by decide
theorem witness_latches_low : State.reset.latchA = false ∧ State.reset.latchB = false ∧
    State.reset.aPrev = false ∧ State.reset.bPrev = false := by decide
theorem witness_decade : State.reset.inc.toNat ∈ decades := by decide
theorem witness_unbounded_decoder : (∀ e ∈ [Instr.chaHigh, .btnPress, .chaLow], e.agent = .eventUnit) ∧
    [Instr.chaHigh, .btnPress, .chaLow].length ≤ 2115 ∧ 0 ≤ State.reset.freq.toInt ∧
    State.reset.freq.toInt ≤ 32000000 ∧ State.reset.inc.toNat ≤ 1000000 := by decide
theorem witness_event_agent : Instr.btnPress.agent = .eventUnit := by decide
theorem witness_commuting : Instr.chaHigh.agent = .eventUnit ∧ (Instr.txData 0).agent = .sequencer ∧
    Instr.txData 0 ≠ .pollF ∧ Instr.txData 0 ≠ .pollI := by decide
theorem witness_sample_codes : State.reset.seq.legal = true ∧
    (sampleEvents Config.eventOrder State.reset.previousLevels ⟨true, true, true⟩).map encode =
      [0b1001#4, 0b1011#4].map Code.event := by decide
theorem witness_poll_unchanged : (pollFAt 2000 2000).snapFValid = true ∧
    (pollFAt 2000 2000).freq.toInt = (pollFAt 2000 2000).snapF.toInt := by decide
theorem witness_poll_changed : ¬ ((pollFAt (-1000) 0).snapFValid = true ∧
    (pollFAt (-1000) 0).freq.toInt = (pollFAt (-1000) 0).snapF.toInt) := by decide
theorem witness_step_size_unchanged : ∃ s : State, s.snapIValid = true ∧ s.inc.toNat = s.snapI.toNat :=
  ⟨{ State.reset with snapI := 1000#20, snapIValid := true }, by decide⟩
theorem witness_step_size_changed :
    ¬ (State.reset.snapIValid = true ∧ State.reset.inc.toNat = State.reset.snapI.toNat) := by decide
theorem witness_display_port : 0 ≤ (32000000#32 : FreqWord).toInt ∧ (32000000#32 : FreqWord).toInt ≤ 32000000 := by
  decide

/-- A quiescent state: both snapshots taken, at `POLL_F`. -/
def quietState : State :=
  { State.reset with seq := .phase 6#4, snapF := 1000#32, snapFValid := true, snapI := 1000#20, snapIValid := true }

theorem witness_quiescent : quietState.quiescent ∧ quietState.stim = [] := by
  refine ⟨⟨?_, ?_, ?_, ?_, ?_⟩, ?_⟩ <;> decide
theorem witness_pass_step_size_changed : (pollFAt 2000 2000).seq = ⟨6#4, 0#6, 0#2⟩ ∧ (pollFAt 2000 2000).stim = [] ∧
    (pollFAt 2000 2000).snapFValid = true ∧ (pollFAt 2000 2000).snapF = (pollFAt 2000 2000).freq ∧
    ¬ ((pollFAt 2000 2000).snapIValid = true ∧ (pollFAt 2000 2000).snapI = (pollFAt 2000 2000).inc) := by decide
theorem witness_pass_frequency_changed : (pollFAt 33001000 2000).seq = ⟨6#4, 0#6, 0#2⟩ ∧
    (pollFAt 33001000 2000).stim = [] ∧
    ¬ ((pollFAt 33001000 2000).snapFValid = true ∧ (pollFAt 33001000 2000).snapF = (pollFAt 33001000 2000).freq) := by decide
theorem witness_pass_frequency_only : ({ quietState with freq := 2000#32 } : State).seq = ⟨6#4, 0#6, 0#2⟩ ∧
    ¬ (({ quietState with freq := 2000#32 } : State).snapFValid = true ∧
      ({ quietState with freq := 2000#32 } : State).snapF = ({ quietState with freq := 2000#32 } : State).freq) ∧
    ({ quietState with freq := 2000#32 } : State).snapIValid = true ∧
    ({ quietState with freq := 2000#32 } : State).snapI = ({ quietState with freq := 2000#32 } : State).inc := by decide
theorem witness_legal_argument : (0 : Int) ≤ 32000000 ∧ (32000000 : Int) ≤ 32000000 := by decide
theorem witness_outside_argument :
    ((-1 : Int) < 0 ∨ (32000000 : Int) < -1) ∧ ((32000001 : Int) < 0 ∨ (32000000 : Int) < 32000001) := by
  decide
theorem witness_codec_range : (31999999 : Nat) < 32000000 ∧ (32000000 : Nat) ≤ 32000000 := by decide
theorem witness_capture : Pins.initial.ddsWclk = false := by decide

/-- A stimulus of 122 turns with an event after the first. -/
def busyMoves : List Move := .turn :: .event 0b1001#4 :: List.replicate 121 .turn

/-- A stimulus of six turns and a sample of the front-end. -/
def startMoves : List Move := List.replicate 6 .turn ++ [.sample ⟨true, false, true⟩]

theorem witness_transmission :
    (∀ m ∈ busyMoves, m.interleaves = true) ∧ busyMoves.count .turn = 122 ∧
    ({ sequencerAt (.txBit 0 0#2) with stim := busyMoves ++ [] } : State).seq = ⟨7#4, 0#6, 0#2⟩ ∧
    ({ sequencerAt (.txBit 0 0#2) with stim := busyMoves ++ [] } : State).stim = busyMoves ++ [] := by
  refine ⟨by decide +kernel, by decide +kernel, rfl, rfl⟩
theorem witness_start_up :
    (∀ m ∈ startMoves, m.interleaves = true) ∧ startMoves.count .turn = 6 ∧
    ({ State.reset with stim := startMoves ++ [] } : State).seq = ⟨0#4, 0#6, 0#2⟩ ∧
    ({ State.reset with stim := startMoves ++ [] } : State).stim = startMoves ++ [] := by
  refine ⟨by decide, by decide, rfl, rfl⟩

theorem witness_not_rising : (serialAt 1).bad = false ∧ ((⟨.ddsData, true⟩ : PinWrite).level = false ∨
    Pins.initial.get (⟨.ddsData, true⟩ : PinWrite).pin = true ∨ (⟨.ddsData, true⟩ : PinWrite).pin = .ddsData) := by decide
theorem witness_clock : (serialAt 0).bad = false ∧ Pins.initial.ddsWclk = false ∧ (serialAt 0).stage = .serial ∧
    ({ serialAt 0 with stage := .resetSeen } : Receiver).stage = .resetSeen ∧ Receiver.initial.stage = .unknown := by decide
theorem witness_latch : (serialAt 40).bad = false ∧ Pins.initial.ddsFqud = false ∧ (serialAt 40).stage = .serial ∧
    (serialAt 40).cnt = 40 ∧ (serialAt 41).cnt ≠ 40 ∧
    ({ serialAt 0 with stage := .clkSeen } : Receiver).stage = .clkSeen ∧ Receiver.initial.stage = .unknown := by decide
theorem witness_chip_reset : (serialAt 7).bad = false ∧ Pins.initial.ddsReset = false := by decide
theorem witness_broken : ({ State.reset with rx := { Receiver.initial with bad := true } } : State).rx.bad = true ∧
    ({ State.reset with rx := { Receiver.initial with bad := true } } : State).nextMove = .turn ∧
    after (step { State.reset with rx := { Receiver.initial with bad := true } }) (·.seq) = some (.phase 1#4) := by decide

theorem witness_never_repeated : 6 ≤ (sequencerAt (.txBit 15 2#2)).phase ∧
    (sequencerAt (.txBit 15 2#2)).nextMove = .turn ∧
    after (step (sequencerAt (.txBit 15 2#2))) (·.pinlog) = some [⟨.ddsWclk, false⟩] := by decide
theorem witness_into_phase_8 : (exec (.txClkLo 39) (sequencerAt (.txBit 39 2#2)) =
    .next ((sequencerAt (.txBit 39 2#2)).writePin .ddsWclk false |>.goto (.phase 8#4))) := rfl

/-! ### witnesses of the invariants -/

/-- A state just after the rise of the latch line: the frame of 1000 Hz committed, its pulse still high. -/
def latchedState : State :=
  { sequencerAt (.phase 9#4) with
    holdF := 1000#32
    pins := { ddsReset := false, ddsWclk := false, ddsData := false, ddsFqud := true }
    rx := { serialAt 0 with active := 0x0000008637#40, activeValid := true }
    pinlog := bootImage ++ (wireImage 0x0000008637#40).take 121 }

theorem latchedState_block : BlockInv latchedState := by
  refine ⟨by decide, by decide, by decide, by decide, by decide, by decide, fun _ => by decide, by decide, ?_⟩
  intro e he
  cases he

/-- A state just before the rise of the latch line: all 40 bits of the frame of 1000 Hz received. -/
def loadedState : State :=
  { sequencerAt (.phase 8#4) with
    holdF := 1000#32
    rx := serialAt 40
    pinlog := bootImage ++ (wireImage 0x0000008637#40).take 120 }

theorem loadedState_block : BlockInv loadedState := by
  refine ⟨by decide, by decide, by decide, by decide, by decide, by decide, fun _ => by decide, by decide, ?_⟩
  intro e he
  cases he

theorem witness_wire_latched : WireInv latchedState := by
  refine ⟨latchedState_block, ?_, ?_, ?_, ?_, ?_, ?_, ?_, ?_, ?_, ?_, ?_, ?_, ?_, ?_⟩ <;> decide

/-- Bit by bit, the 40 bits received are `TXBUF`. -/
theorem witness_wire_loaded : WireInv loadedState := by
  refine ⟨loadedState_block, ?_, ?_, ?_, ?_, ?_, ?_, ?_, ?_, ?_, ?_, ?_, ?_, ?_, ?_⟩ <;> decide

/-- A state at `POLL_F` after the frequency 1000 was sent and shown. -/
def shownState : State :=
  { quietState with
    rx := { serialAt 0 with active := 0x0000008637#40, activeValid := true } }

theorem witness_wire_shown : WireInv shownState := by
  refine ⟨⟨by decide, by decide, by decide, by decide, by decide, by decide, ?_, by decide, ?_⟩,
    ?_, ?_, ?_, ?_, ?_, ?_, ?_, ?_, ?_, ?_, ?_, ?_, ?_, ?_⟩
  · rintro ⟨h, -⟩; revert h; decide
  · intro e he; cases he
  all_goals decide

theorem witness_wire_steps : after (step latchedState) (·.seq) = some (.phase 10#4) ∧
    after (step loadedState) (fun t => (t.seq, t.rx.active)) = some (.phase 9#4, 0x0000008637#40) ∧
    after (step shownState) (·.seq) = some (.phase 11#4) ∧ shownState.snapFValid = true := by decide

theorem witness_history : HistoryInv latchedState ∧ HistoryInv loadedState :=
  ⟨⟨latchedState_block, by decide, by decide⟩, ⟨loadedState_block, by decide, by decide⟩⟩

/-- A state that took its first two steps: its receiver and pins are those of its log. -/
def pulsedState : State :=
  { State.reset with
    seq := .phase 2#4
    pinlog := [⟨.ddsReset, true⟩, ⟨.ddsReset, false⟩]
    rx := Receiver.replay 0 [⟨.ddsReset, true⟩, ⟨.ddsReset, false⟩] }

theorem witness_log : LogInv pulsedState ∧ after (step pulsedState) (·.seq) = some (.phase 3#4) := by
  refine ⟨⟨rfl, by decide⟩, by decide⟩

end Sys2Proof.Tests
end

section
/-! PROOFS. The event codes (R81, R82): what a step makes of a code offered on the event port, and that the codes of the
event operations select them. -/

namespace Sys2Proof.Machine

/-! ### decoding an event code -/

/-- A code whose valid bit `v` is 0 is idle, whatever its other bits hold (R82). -/
theorem decodeEvent_of_invalid {ev : EventCode} (hv : ev.getLsbD 3 = false) : decodeEvent ev = .idle := if_pos hv

/-- The three codes with `v` = 1 that the table gives no operation (R82). -/
theorem decodeEvent_of_reserved {ev : EventCode} (hr : ev = 0b1101#4 ∨ ev = 0b1110#4 ∨ ev = 0b1111#4) :
    decodeEvent ev = .reservedEvent := by
  rcases hr with rfl | rfl | rfl <;> rfl

/-- Every operation of the event unit has an event code, and that code selects it (R81, R88). -/
theorem exists_eventCode_of_agent {i : Instr} (hi : i.agent = .eventUnit) :
    ∃ ev : EventCode, encode i = .event ev ∧ decodeEvent ev = .op i := by
  cases i with
  | chaLow => exact ⟨_, rfl, rfl⟩
  | chaHigh => exact ⟨_, rfl, rfl⟩
  | chbLow => exact ⟨_, rfl, rfl⟩
  | chbHigh => exact ⟨_, rfl, rfl⟩
  | btnPress => exact ⟨_, rfl, rfl⟩
  | _ => cases hi

/-! ### running a code that selects no operation -/

theorem runCode_of_idle (c : Code) (s : State) (hc : decode c = .idle) : runCode c s = .next s := by
  simp [runCode, hc]

theorem runCode_of_reservedEvent (c : Code) (s : State) (hc : decode c = .reservedEvent) :
    runCode c s = .refused .reservedEvent := by
  simp [runCode, hc]

/-- Where the position is legal, a step offered an event code runs that code on the state it was offered in. -/
theorem step_offer_event {s : State} (hl : s.seq.legal = true) (ev : EventCode) :
    step (s.offer (.event ev)) = runCode (.event ev) s :=
  step_eq_runCode hl rfl

/-- Settles O5: the step runs the code offered, whose decoding tells the idle and the reserved codes apart; the
front-end's events are all operations of the event unit. -/
theorem idleAndReservedEventCodes : Obligations.IdleAndReservedEventCodes := by
  refine ⟨?idle, ?reserved, ?frontEnd⟩
  case idle =>
    intro s ev hl hv
    rw [step_offer_event hl]
    exact runCode_of_idle (.event ev) s (decodeEvent_of_invalid hv)
  case reserved =>
    intro s ev hl hr
    rw [step_offer_event hl]
    exact runCode_of_reservedEvent (.event ev) s (decodeEvent_of_reserved hr)
  case frontEnd =>
    intro order before now i hi
    exact exists_eventCode_of_agent (sampleEvents_agent order before now i hi)

end Sys2Proof.Machine
end

section
/-! PROOFS. The bytes of a frame (R61, R111, R113): the four below bit 32 are those of the word, the fifth is the control
byte. -/

namespace Sys2Proof.Machine

/-- A byte of the frame below the control byte is the word's own byte at the same place (R85). -/
theorem frameByte_frameOf (w : TuningWord) {j : Nat} (hj : j < 4) :
    frameByte (frameOf w) j = w.extractLsb' (8 * j) 8 := by
  ext i hi
  have hbit : 8 * j + i < 32 := by omega
  simp [frameByte, frameOf_getLsbD, hbit]

/-- The fifth byte of a frame is its control byte (R61, R85). -/
theorem frameByte_four (t : FrameWord) : frameByte t 4 = frameCtrl t := rfl

/-- The bytes of the frame of any tuning word, least significant first (R111, R113). -/
theorem frameBytes_frameOf (w : TuningWord) :
    frameBytes (frameOf w) =
      [w.extractLsb' 0 8, w.extractLsb' 8 8, w.extractLsb' 16 8, w.extractLsb' 24 8, Config.ctrlByte] := by
  have hctrl : frameByte (frameOf w) 4 = Config.ctrlByte := by rw [frameByte_four, frameCtrl_frameOf]
  simp [frameBytes, frameByte_frameOf, hctrl]

/-- Settles O42: the bytes of a frame are those of its word, whichever word `ENCODE` answers, legal or drawn. -/
theorem frameHasFiveBytes : Obligations.FrameHasFiveBytes := by
  intro draw f
  exact frameBytes_frameOf (encodeWord draw f)

end Sys2Proof.Machine
end

section
/-! PROOFS. The operations of one transmitted bit (R131 to R133): the positions that select them, their next states, and
that the last of them is the only way into phase 8. -/

namespace Sys2Proof.Machine

/-- A position of phase 7 whose bit is in range selects among the three operations of that bit by its step (R83, R84). -/
theorem decode_txBit (k : Fin 40) (st : BitVec 2) :
    decode (.position (positionCode 7#4 (BitVec.ofNat 6 k) st)) = txBitOperation k st.toNat := by
  have hk : k.val % 64 = k.val := Nat.mod_eq_of_lt (by omega)
  simp [decode, decodePosition, hk]

/-- The three operations of bit `k`, at steps 0, 1 and 2 (R84). -/
theorem txBitOperation_steps (k : Fin 40) :
    txBitOperation k 0 = .op (.txData k) ∧ txBitOperation k 1 = .op (.txClkHi k) ∧
      txBitOperation k 2 = .op (.txClkLo k) :=
  ⟨dif_pos k.isLt, dif_pos k.isLt, dif_pos k.isLt⟩

/-- After a bit the sequencer is in phase 8 only if the bit was the last (R133). -/
theorem SeqPos.eq_last_of_afterBit_phase {k : Fin 40} (h : (SeqPos.afterBit k).ph = 8#4) : k = 39 := by
  by_cases hk : k.val = 39
  · exact Fin.ext hk
  · rw [SeqPos.afterBit, if_neg hk] at h
    cases h

/-- An operation that leaves the sequencer in phase 8 either left `SEQ` alone or is `TX_CLK_LO` at the last bit. -/
theorem exec_seq_of_phase_eight {i : Instr} {s t : State} (h : exec i s = .next t) (h8 : t.seq.ph = 8#4) :
    t.seq = s.seq ∨ i = .txClkLo 39 := by
  cases i with
  | chaLow | chaHigh | chbLow | chbHigh | btnPress | encode | decode => cases h; exact .inl rfl
  | txClkLo k => cases h; exact .inr (congrArg Instr.txClkLo (SeqPos.eq_last_of_afterBit_phase h8))
  | pollF =>
    cases h
    split at h8 <;> cases h8
  | pollI =>
    cases h
    split at h8 <;> cases h8
  | _ => cases h; cases h8

/-- Settles O28: the codes by the phase 7 decoder, the way into phase 8 by cases over the operations; the next states
are the meanings of the three operations with `writePin` and `goto` written out. -/
theorem frameBitOperations : Obligations.FrameBitOperations := by
  refine ⟨?codes, ?intoPhaseEight, fun s k => ⟨rfl, rfl, rfl⟩⟩
  case codes =>
    intro k
    simp only [decode_txBit]
    exact txBitOperation_steps k
  case intoPhaseEight =>
    intro i s t h h8
    exact exec_seq_of_phase_eight h (BitVec.eq_of_toNat_eq h8)

end Sys2Proof.Machine
end

section
/-! PROOFS. The reference receiver's two lines of a frame (R152, R153): its reaction to a rise of the load clock and of
the latch line, stage by stage. -/

namespace Sys2Proof.Machine

/-! ### a rising load clock -/

/-- In a receiver that is not bad, raising the low load clock is its clock reaction, on the data line as it is (R151). -/
theorem Receiver.onWrite_clockRise {r : Receiver} {p : Pins} (run place : Nat) (hr : r.bad = false)
    (hp : p.ddsWclk = false) : r.onWrite run place p ⟨.ddsWclk, true⟩ = r.onClock run place p.ddsData := by
  simp [Receiver.onWrite, Pins.get, hr, hp]

theorem Receiver.onClock_serial {r : Receiver} (run place : Nat) (data : Bool) (h : r.stage = .serial) :
    r.onClock run place data =
      { r with shift := BitVec.ofBool data ++ r.shift.extractLsb' 1 39, cnt := r.cnt + 1 } := by
  simp [Receiver.onClock, h]

theorem Receiver.onClock_resetSeen {r : Receiver} (run place : Nat) (data : Bool) (h : r.stage = .resetSeen) :
    r.onClock run place data = { r with stage := .clkSeen } := by
  simp [Receiver.onClock, h]

theorem Receiver.onClock_lost {r : Receiver} (run place : Nat) (data : Bool)
    (h : r.stage = .unknown ∨ r.stage = .clkSeen) : r.onClock run place data = Receiver.lost run place := by
  rcases h with h | h <;> simp [Receiver.onClock, h]

/-- A bit shifted in at the top is bit 39 (R152). -/
theorem shiftIn_getLsbD_top (data : Bool) (x : FrameWord) :
    (BitVec.ofBool data ++ x.extractLsb' 1 39).getLsbD 39 = data := by
  rw [BitVec.getLsbD_append]
  simp

/-- Below the bit shifted in, every bit is the one that stood above it (R152). -/
theorem shiftIn_getLsbD_below (data : Bool) (x : FrameWord) {j : Nat} (hj : j < 39) :
    (BitVec.ofBool data ++ x.extractLsb' 1 39).getLsbD j = x.getLsbD (j + 1) := by
  rw [BitVec.getLsbD_append]
  simp [hj, Nat.add_comm]

/-- Settles O48: the write is the clock reaction, which its stage decides. -/
theorem loadClockShiftsOneBitIn : Obligations.LoadClockShiftsOneBitIn := by
  intro r run place p hr hp
  rw [Receiver.onWrite_clockRise run place hr hp]
  refine ⟨fun hs => ?serial, Receiver.onClock_resetSeen run place p.ddsData, fun hs => ?lost⟩
  case serial =>
    exact ⟨_, Receiver.onClock_serial run place p.ddsData hs, shiftIn_getLsbD_top p.ddsData r.shift,
      fun _ hj => shiftIn_getLsbD_below p.ddsData r.shift hj⟩
  case lost =>
    rw [Receiver.onClock_lost run place p.ddsData hs]
    rfl

/-! ### a rising latch line -/

/-- In a receiver that is not bad, raising the low latch line is its update reaction (R151). -/
theorem Receiver.onWrite_latchRise {r : Receiver} {p : Pins} (run place : Nat) (hr : r.bad = false)
    (hp : p.ddsFqud = false) : r.onWrite run place p ⟨.ddsFqud, true⟩ = r.onUpdate run place := by
  simp [Receiver.onWrite, Pins.get, hr, hp]

/-- With exactly one frame counted, the update commits it whole (R153). -/
theorem Receiver.onUpdate_wholeFrame {r : Receiver} (run place : Nat) (h : r.stage = .serial) (hc : r.cnt = 40) :
    r.onUpdate run place = { r with active := r.shift, activeValid := true, cnt := 0 } := by
  simp [Receiver.onUpdate, h, hc]

/-- With fewer or more bits counted than one frame has, the protocol is broken (R153). -/
theorem Receiver.onUpdate_otherCount {r : Receiver} (run place : Nat) (h : r.stage = .serial) (hc : r.cnt ≠ 40) :
    r.onUpdate run place = Receiver.lost run place := by
  simp [Receiver.onUpdate, h, hc]

theorem Receiver.onUpdate_clkSeen {r : Receiver} (run place : Nat) (h : r.stage = .clkSeen) :
    r.onUpdate run place = { r with stage := .serial, cnt := 0 } := by
  simp [Receiver.onUpdate, h]

theorem Receiver.onUpdate_lost {r : Receiver} (run place : Nat) (h : r.stage = .unknown ∨ r.stage = .resetSeen) :
    r.onUpdate run place = Receiver.lost run place := by
  rcases h with h | h <;> simp [Receiver.onUpdate, h]

/-- Settles O49: the write is the update reaction, which its stage and the count decide. -/
theorem latchCommitsWholeFramesOnly : Obligations.LatchCommitsWholeFramesOnly := by
  intro r run place p hr hp
  rw [Receiver.onWrite_latchRise run place hr hp]
  refine ⟨Receiver.onUpdate_wholeFrame run place, fun hs hc => ?otherCount, Receiver.onUpdate_clkSeen run place,
    fun hs => ?lost⟩
  case otherCount =>
    rw [Receiver.onUpdate_otherCount run place hs hc]
    rfl
  case lost =>
    rw [Receiver.onUpdate_lost run place hs]
    rfl

end Sys2Proof.Machine
end

section
/-! PROOFS. The quadrature decoder's four operations (R161 to R164): what a rise makes of `FREQ` with the other
channel's latch low and with it high, and that a fall clears its own latch only. -/

namespace Sys2Proof.Machine

/-! ### the wrapped sum and difference -/

/-- Wrapping keeps the residue modulo 2^32, read in the signed range (R13). -/
theorem wrap32_toInt (v : Int) : (wrap32 v).toInt = v.bmod (2 ^ 32) := BitVec.toInt_ofInt v

theorem State.freqUp_toInt (s : State) : s.freqUp.toInt = (s.freq.toInt + (s.inc.toNat : Int)).bmod (2 ^ 32) :=
  wrap32_toInt _

theorem State.freqDown_toInt (s : State) : s.freqDown.toInt = (s.freq.toInt - (s.inc.toNat : Int)).bmod (2 ^ 32) :=
  wrap32_toInt _

/-! ### a rise, by the other channel's latch -/

/-- With B high, a rise of A is no step: `FREQ` stays (R161). -/
theorem exec_chaHigh_of_latchB {s : State} (hb : s.latchB = true) :
    exec .chaHigh s = .next (s.setLatchA true) := by
  simp only [exec, execChaHigh, if_pos hb]

/-- With B low, a rise of A is a step up (R161). -/
theorem exec_chaHigh_of_not_latchB {s : State} (hb : s.latchB = false) :
    exec .chaHigh s = .next ({ s with freq := s.freqUp }.setLatchA true) := by
  simp [exec, execChaHigh, hb]

/-- With A high, a rise of B is no step: `FREQ` stays (R163). -/
theorem exec_chbHigh_of_latchA {s : State} (ha : s.latchA = true) :
    exec .chbHigh s = .next (s.setLatchB true) := by
  simp only [exec, execChbHigh, if_pos ha]

/-- With A low, a rise of B is a step down (R163). -/
theorem exec_chbHigh_of_not_latchA {s : State} (ha : s.latchA = false) :
    exec .chbHigh s = .next ({ s with freq := s.freqDown }.setLatchB true) := by
  simp [exec, execChbHigh, ha]

/-! ### a fall -/

theorem exec_chaLow (s : State) : exec .chaLow s = .next (s.setLatchA false) := rfl

theorem exec_chbLow (s : State) : exec .chbLow s = .next (s.setLatchB false) := rfl

/-! ### the obligations -/

/-- Settles O14, by cases over `LATCH_B`: high, `FREQ` is held; low, it is the wrapped sum. -/
theorem channelAHighStepsUp : Obligations.ChannelAHighStepsUp := by
  refine ⟨rfl, fun s => ?_⟩
  by_cases hb : s.latchB = true
  · exact ⟨_, exec_chaHigh_of_latchB hb, (if_pos hb).symm, rfl⟩
  · exact ⟨_, exec_chaHigh_of_not_latchB (Bool.eq_false_iff.mpr hb), s.freqUp_toInt.trans (if_neg hb).symm, rfl⟩

/-- Settles O15, by cases over `LATCH_A`: high, `FREQ` is held; low, it is the wrapped difference. -/
theorem channelBHighStepsDown : Obligations.ChannelBHighStepsDown := by
  refine ⟨rfl, fun s => ?_⟩
  by_cases ha : s.latchA = true
  · exact ⟨_, exec_chbHigh_of_latchA ha, (if_pos ha).symm, rfl⟩
  · exact ⟨_, exec_chbHigh_of_not_latchA (Bool.eq_false_iff.mpr ha), s.freqDown_toInt.trans (if_neg ha).symm, rfl⟩

/-- Settles O16: a fall writes its own channel's latch and no other register. -/
theorem fallsOnlyClearTheirLatch : Obligations.FallsOnlyClearTheirLatch :=
  ⟨rfl, rfl, fun s => ⟨exec_chaLow s, exec_chbLow s⟩⟩

end Sys2Proof.Machine
end

section
/-! PROOFS. The button's operation (R181): the divided and wrapped step size fits its 20 bits, so what `BTN_PRESS` stores
is that very number. -/

namespace Sys2Proof.Machine

/-- `BTN_PRESS` writes the next step size, brought to 20 bits, and no other register (R181). -/
theorem exec_btnPress (s : State) : exec .btnPress s = .next { s with inc := trunc20 (nextIncrement s.incValue) } := rfl

/-- Any 20-bit step size, decade or not, is at most 2^20 − 1. -/
theorem State.incValue_le (s : State) : s.incValue ≤ 1048575 := Nat.le_of_lt_succ s.inc.isLt

/-- The next step size loses nothing in the 20 bits of `INC` (R13, R181). -/
theorem State.trunc20_nextIncrement_toNat (s : State) :
    (trunc20 (nextIncrement s.incValue)).toNat = nextIncrement s.incValue :=
  have hle : nextIncrement s.incValue ≤ 1000000 := nextIncrement_le s.incValue_le
  zext20_trunc20 (by omega)

/-- Settles O17: the register stored reads as `nextIncrement` of `INC`, which is the division with its wrap. -/
theorem buttonDividesTheStepSize : Obligations.ButtonDividesTheStepSize := by
  refine ⟨rfl, fun s => ⟨_, exec_btnPress s, ?stored, rfl⟩⟩
  case stored =>
    calc (trunc20 (nextIncrement s.incValue)).toNat
      _ = nextIncrement s.incValue := s.trunc20_nextIncrement_toNat
      _ = if s.inc.toNat / 10 < 1 then 1000000 else s.inc.toNat / 10 := rfl

end Sys2Proof.Machine
end

section
/-! PROOFS. The Controller loop's four operations (R191, R194 to R196): what the two polls do with an unchanged and with
a changed register, what the changed register's capture holds, and what the two displays take as the snapshot. -/

namespace Sys2Proof.Machine

/-! ### the two tests -/

/-- The frequency is unchanged under a valid snapshot equal to `FREQ`, both read unclamped (R191). -/
theorem State.freqUnchanged_iff (s : State) :
    s.freqUnchanged = true ↔ s.snapFValid = true ∧ s.freq.toInt = s.snapF.toInt := by
  simp only [State.freqUnchanged, Bool.and_eq_true, decide_eq_true_eq]
  exact Iff.rfl

/-- The step size is unchanged under a valid snapshot equal to `INC` (R195). -/
theorem State.incUnchanged_iff (s : State) :
    s.incUnchanged = true ↔ s.snapIValid = true ∧ s.inc.toNat = s.snapI.toNat := by
  simp only [State.incUnchanged, Bool.and_eq_true, decide_eq_true_eq]
  exact Iff.rfl

/-! ### the polls, by their test -/

theorem exec_pollF_of_unchanged {s : State} (h : s.freqUnchanged = true) :
    exec .pollF s = .next (s.goto (.phase 11#4)) := by
  simp only [exec, execPollF, if_pos h]

theorem exec_pollF_of_changed {s : State} (h : ¬ s.freqUnchanged = true) :
    exec .pollF s = .next s.captureFreq := by
  simp only [exec, execPollF, if_neg h]

theorem exec_pollI_of_unchanged {s : State} (h : s.incUnchanged = true) :
    exec .pollI s = .next (s.goto (.phase 6#4)) := by
  simp only [exec, execPollI, if_pos h]

theorem exec_pollI_of_changed {s : State} (h : ¬ s.incUnchanged = true) :
    exec .pollI s = .next s.captureInc := by
  simp only [exec, execPollI, if_neg h]

/-! ### what a changed frequency leaves -/

/-- The clamp into the legal range as the lesser and the greater of two integers (R13, R191). -/
theorem clampFrequency_eq_max_min (v : Int) : clampFrequency v = max 0 (min v 32000000) := by
  simp only [clampFrequency, clamp, Config.minVal, Config.maxVal]
  split
  · omega
  · split <;> omega

/-- The frequency captured reads as the clamp of `FREQ`, which the 32 bits hold whole. -/
theorem State.captureFreq_freq_toInt (s : State) : s.captureFreq.freq.toInt = clampFrequency s.freq.toInt :=
  sext32_wrap32_of_legal (clampFrequency_legal s.freq.toInt)

/-- A frame read as a number is its word: the control byte above it is zero (R85, R86). -/
theorem frameOf_toNat (w : TuningWord) : (frameOf w).toNat = w.toNat := by
  rw [frameOf, BitVec.toNat_append]
  simp [Config.ctrlByte]

/-- The word of a legal frequency as a number is the floor of R111, whatever draw the codec is offered. -/
theorem encodeWord_toNat_of_legal {f : Int} (draw : TuningWord) (h : LegalFrequency f) :
    (encodeWord draw f).toNat = f.toNat * 2 ^ 32 / 125000000 := by
  have hf : f.toNat < 125000000 := by
    simp only [LegalFrequency, Config.minVal, Config.maxVal] at h
    omega
  rw [encodeWord_of_legal draw h, tuningWord_toNat hf, show (2 : Nat) ^ 32 = 4294967296 by norm_num]

/-- The frame in `TXBUF` is that of the frequency captured beside it (R191). -/
theorem State.captureFreq_txbuf_toNat (s : State) :
    s.captureFreq.txbuf.toNat = s.captureFreq.freq.toInt.toNat * 2 ^ 32 / 125000000 := by
  rw [State.captureFreq_freq_toInt, State.captureFreq_txbuf, frameOf_toNat]
  exact encodeWord_toNat_of_legal _ (clampFrequency_legal s.freq.toInt)

/-! ### what a changed step size leaves -/

/-- The step size captured loses nothing in the 20 bits of `INC` (R195). -/
theorem State.captureInc_inc_toNat (s : State) : s.captureInc.inc.toNat = wrapIncrement s.inc.toNat := by
  have hfits : wrapIncrement s.incValue < 1048576 := by
    have hle : s.incValue ≤ 1048575 := s.incValue_le
    simp only [wrapIncrement, Config.minInc, Config.maxInc]
    split <;> omega
  exact zext20_trunc20 hfits

/-! ### the displays -/

theorem exec_dispF (s : State) :
    exec .dispF s =
      .next ({ s.emit (.freq s.holdF) with snapF := s.holdF, snapFValid := true }.goto (.phase 11#4)) := rfl

theorem exec_dispI (s : State) :
    exec .dispI s =
      .next ({ s.emit (.step s.holdI) with snapI := s.holdI, snapIValid := true }.goto (.phase 6#4)) := rfl

/-! ### the obligations -/

/-- Settles O30, by the test of `POLL_F`: unchanged, it is a `goto`; changed, the next state is `captureFreq`, whose
argument to the codec is a clamp and therefore legal. -/
theorem pollFObservesTheFrequency : Obligations.PollFObservesTheFrequency := by
  refine ⟨rfl, fun s => ⟨fun hvalid heq => ?unchanged, fun hne => ?changed⟩⟩
  case unchanged => exact exec_pollF_of_unchanged (s.freqUnchanged_iff.mpr ⟨hvalid, heq⟩)
  case changed =>
    have hfreq : s.captureFreq.freq.toInt = max 0 (min s.freq.toInt 32000000) :=
      s.captureFreq_freq_toInt.trans (clampFrequency_eq_max_min s.freq.toInt)
    exact ⟨s.captureFreq, exec_pollF_of_changed (mt s.freqUnchanged_iff.mp hne), hfreq, rfl,
      s.captureFreq_txbuf_toNat, rfl⟩

/-- Settles O31, by the test of `POLL_I`: unchanged, it is a `goto`; changed, the next state is `captureInc`, whose
wrapped step size fits its register. -/
theorem pollIObservesTheStepSize : Obligations.PollIObservesTheStepSize := by
  refine ⟨rfl, fun s => ⟨fun hvalid heq => ?unchanged, fun hne => ?changed⟩⟩
  case unchanged => exact exec_pollI_of_unchanged (s.incUnchanged_iff.mpr ⟨hvalid, heq⟩)
  case changed =>
    exact ⟨s.captureInc, exec_pollI_of_changed (mt s.incUnchanged_iff.mp hne), s.captureInc_inc_toNat, rfl, rfl⟩

/-- Settles O32: the snapshot takes the register shown, `HOLD_F` or `HOLD_I`, with no fresh read of `FREQ` or `INC`. -/
theorem displayTakesTheSnapshot : Obligations.DisplayTakesTheSnapshot :=
  ⟨rfl, rfl, fun s => ⟨exec_dispF s, exec_dispI s⟩⟩

end Sys2Proof.Machine
end

section
/-! PROOFS. Encoding (R80 to R90): the decoder undoes the encoder on every operation of the table, and a code that
selects an operation is that operation's own. -/

namespace Sys2Proof.Machine

/-! ### the operations of each agent -/

/-- Only `ENCODE`, whose code is a frame, has an operand that can be out of range (R88, R111). -/
theorem wellFormed_of_not_frame {i : Instr} (hi : ∀ t, encode i ≠ .frame t) : i.wellFormed = true := by
  cases i with
  | encode f => exact absurd rfl (hi _)
  | _ => rfl

/-- A legal frequency is a natural number up to 32,000,000 (R111). -/
theorem legalFrequency_iff (f : Int) : LegalFrequency f ↔ ∃ n : Nat, n ≤ 32000000 ∧ f = n := by
  simp only [LegalFrequency, Config.minVal, Config.maxVal]
  constructor
  · exact fun h => ⟨f.toNat, by omega, by omega⟩
  · rintro ⟨n, hn, rfl⟩
    omega

theorem legalFrequency_natCast {n : Nat} (hn : n ≤ 32000000) : LegalFrequency (n : Int) :=
  (legalFrequency_iff n).mpr ⟨n, hn, rfl⟩

/-! ### frames -/

/-- A frame with a zero control byte is the frame of its word (R85). -/
theorem frameOf_frameWord {t : FrameWord} (h : frameCtrl t = Config.ctrlByte) : frameOf (frameWord t) = t := by
  apply BitVec.eq_of_getLsbD_eq
  intro j hj
  rw [frameOf_getLsbD]
  by_cases hlow : j < 32
  · simp [frameWord, hlow]
  · have hbit : (frameCtrl t).getLsbD (j - 32) = t.getLsbD j := by
      simp [frameCtrl, show j - 32 < 8 by omega, show 32 + (j - 32) = j by omega]
    rw [h] at hbit
    simp [hlow, ← hbit]

/-- The frame of a legal frequency's word decodes to its `ENCODE` (R111, R116). -/
theorem decodeFrame_frameOf {n : Nat} (hn : n ≤ 32000000) :
    decodeFrame (frameOf (tuningWord n)) = .op (.encode n) := by
  simp only [decodeFrame, frameWord_frameOf, frameCtrl_frameOf, frequencyOf_tuningWord hn]
  exact if_pos ⟨trivial, legalFrequency_natCast hn, trivial⟩

/-- A frame that decodes to an operation is the frame of a legal frequency's word; any other is refused (R85, R86). -/
theorem decodeFrame_cases (t : FrameWord) :
    (∃ n : Nat, n ≤ 32000000 ∧ t = frameOf (tuningWord n) ∧ decodeFrame t = .op (.encode n)) ∨
    decodeFrame t = .notAFrame := by
  by_cases h : frameCtrl t = Config.ctrlByte ∧ LegalFrequency (frequencyOf (frameWord t) : Int) ∧
      tuningWord (frequencyOf (frameWord t)) = frameWord t
  · obtain ⟨hctrl, hlegal, hword⟩ := h
    refine .inl ⟨_, ?_, ?_, if_pos ⟨hctrl, hlegal, hword⟩⟩
    · exact Int.ofNat_le.mp hlegal.2
    · rw [hword, frameOf_frameWord hctrl]
  · exact .inr (if_neg h)

/-- A frame is that of a legal frequency's word exactly when it reads as the floor of R111. -/
theorem eq_frameOf_tuningWord_iff (t : FrameWord) {n : Nat} (hn : n ≤ 32000000) :
    t = frameOf (tuningWord n) ↔ t.toNat = n * 2 ^ 32 / 125000000 := by
  rw [← BitVec.toNat_inj, frameOf_toNat, tuningWord_toNat (by omega), show (2 : Nat) ^ 32 = 4294967296 by norm_num]

/-! ### the round trips -/

/-- Settles O1, by cases over the operations: a fixed code is looked up, a bit's position is one of the three of its
index, a frame is that of a legal frequency. -/
theorem encodedOperationDecodesBack : Obligations.EncodedOperationDecodesBack := by
  intro i hi
  cases i with
  | txData k =>
    obtain ⟨hdata, -, -⟩ := txBitOperation_steps k
    exact (decode_txBit k 0#2).trans hdata
  | txClkHi k =>
    obtain ⟨-, hhi, -⟩ := txBitOperation_steps k
    exact (decode_txBit k 1#2).trans hhi
  | txClkLo k =>
    obtain ⟨-, -, hlo⟩ := txBitOperation_steps k
    exact (decode_txBit k 2#2).trans hlo
  | encode f =>
    obtain ⟨n, hn, rfl⟩ := (legalFrequency_iff f).mp (of_decide_eq_true hi)
    exact decodeFrame_frameOf hn
  | _ => rfl

/-- An event code that selects an operation is its own code, and the event unit performs it (R81). -/
theorem encode_of_decodeEvent {ev : EventCode} {i : Instr} (h : decodeEvent ev = .op i) :
    encode i = .event ev ∧ i.agent = .eventUnit := by
  have := decodeEvent_selects ev
  simpa [h, selectsOwn] using this

/-- A position code that selects an operation is its own code, and the sequencer performs it (R83). -/
theorem encode_of_decodePosition {c : PositionCode} {i : Instr} (h : decodePosition c = .op i) :
    encode i = .position c ∧ i.agent = .sequencer := by
  have := decodePosition_selects c
  simpa [h, selectsOwn] using this

/-- A frame that selects an operation is its own code, and the operation is well-formed (R85, R88). -/
theorem encode_of_decodeFrame {t : FrameWord} {i : Instr} (h : decodeFrame t = .op i) :
    encode i = .frame t ∧ i.wellFormed = true := by
  rcases decodeFrame_cases t with ⟨n, hn, rfl, hd⟩ | hd <;> cases hd.symm.trans h
  exact ⟨rfl, decide_eq_true (legalFrequency_natCast hn)⟩

/-- Settles O2, by the four formats of a code. -/
theorem decodedCodeEncodesBack : Obligations.DecodedCodeEncodesBack := by
  intro c i h
  cases c with
  | event ev =>
    obtain ⟨hcode, -⟩ := encode_of_decodeEvent h
    exact ⟨wellFormed_of_not_frame (by simp [hcode]), hcode⟩
  | position c =>
    obtain ⟨hcode, -⟩ := encode_of_decodePosition h
    exact ⟨wellFormed_of_not_frame (by simp [hcode]), hcode⟩
  | frame t =>
    obtain ⟨hcode, hwf⟩ := encode_of_decodeFrame h
    exact ⟨hwf, hcode⟩
  | word w =>
    cases h
    exact ⟨rfl, rfl⟩

/-- The width and the bits of a code's table row give that code back (R90). -/
theorem codeOfTable_code (c : Code) : codeOfTable (codeBits c) (codeNumber c) = some c := by
  cases c with
  | event ev => simp [codeOfTable, codeBits, codeNumber, ev.isLt]
  | position c => simp [codeOfTable, codeBits, codeNumber, c.isLt]
  | frame t => simp [codeOfTable, codeBits, codeNumber, t.isLt]
  | word w => simp [codeOfTable, codeBits, codeNumber, w.isLt]

/-- Settles O3: the row gives the code back, which decodes to its operation. -/
theorem tableBitsDecodeBack : Obligations.TableBitsDecodeBack := by
  intro i hi
  simp only [decodeTableWord, codeOfTable_code, encodedOperationDecodesBack i hi]

/-- Settles O4: seven closed evaluations of the decoder. -/
theorem writtenOutCodesDecode : Obligations.WrittenOutCodesDecode :=
  ⟨by decide, by decide, by decide, by decide, by decide, by decide, by decide⟩

/-! ### legal positions -/

/-- Outside phase 7 the phases up to 12, and no others, select an operation (R83). -/
theorem phaseOperation_selects (n : Nat) : (∃ i, phaseOperation n = .op i) ↔ n ≤ 12 ∧ n ≠ 7 := by
  constructor
  · rintro ⟨i, h⟩
    unfold phaseOperation at h
    split at h
    case h_13 => cases h
    all_goals omega
  · rintro ⟨hn, h7⟩
    have hsides : n ≤ 6 ∨ 8 ≤ n := by omega
    rcases hsides with hlow | hhigh <;> interval_cases n
    all_goals exact ⟨_, rfl⟩

/-- In phase 7 the bits 0 to 39 with the steps 0 to 2, and no others, select an operation (R84). -/
theorem txBitOperation_selects (k s : Nat) : (∃ i, txBitOperation k s = .op i) ↔ k ≤ 39 ∧ s ≤ 2 := by
  constructor
  · rintro ⟨i, h⟩
    unfold txBitOperation at h
    split at h
    · split at h
      case h_4 => cases h
      all_goals omega
    · cases h
  · rintro ⟨hk, hs⟩
    obtain ⟨hdata, hhi, hlo⟩ := txBitOperation_steps ⟨k, by omega⟩
    interval_cases s
    · exact ⟨_, hdata⟩
    · exact ⟨_, hhi⟩
    · exact ⟨_, hlo⟩

/-- The legal positions by their fields (R84). -/
theorem SeqPos.legal_iff (q : SeqPos) :
    q.legal = true ↔ (q.ph = 7#4 ∧ q.k.toNat ≤ 39 ∧ q.s.toNat ≤ 2) ∨
      (q.ph ≠ 7#4 ∧ q.ph.toNat ≤ 12 ∧ q.k = 0#6 ∧ q.s = 0#2) := by
  by_cases h7 : q.ph = 7#4
  · simp [SeqPos.legal, h7, Nat.lt_succ_iff]
  · simp [SeqPos.legal, h7, Nat.lt_succ_iff, and_assoc]

/-- A position is legal exactly when its code selects an operation (R84). -/
theorem SeqPos.legal_iff_selects (q : SeqPos) :
    q.legal = true ↔ ∃ i, decode (.position q.code) = .op i := by
  rw [SeqPos.legal_iff]
  simp only [decode, decodePosition, SeqPos.code, positionCode_phase, positionCode_bit, positionCode_step]
  by_cases h7 : q.ph = 7#4
  · rw [if_pos h7, txBitOperation_selects]
    simp [h7]
  · have hne : q.ph.toNat ≠ 7 := fun h => h7 (BitVec.eq_of_toNat_eq h)
    rw [if_neg h7]
    by_cases h0 : q.k = 0#6 ∧ q.s = 0#2
    · rw [if_pos h0, phaseOperation_selects]
      simp [h7, h0, hne]
    · simp [h7, h0]

/-- Settles O6: the fields by `SeqPos.legal_iff`, the operation by what the code selects, which is the sequencer's. -/
theorem legalPositionsSelectOperations : Obligations.LegalPositionsSelectOperations := by
  intro q
  refine ⟨q.legal_iff, q.legal_iff_selects.trans ⟨?_, ?_⟩⟩
  · exact fun ⟨i, h⟩ => ⟨i, h, (encode_of_decodePosition h).2⟩
  · exact fun ⟨i, h, _⟩ => ⟨i, h⟩

/-- The position of a sequencer operation's code is legal, and selects it. -/
theorem SeqPos.legal_of_encode {q : SeqPos} {i : Instr} (h : encode i = .position q.code) :
    q.legal = true ∧ decode (.position q.code) = .op i := by
  have hi : i.wellFormed = true := wellFormed_of_not_frame (by simp [h])
  have hd : decode (.position q.code) = .op i := h ▸ encodedOperationDecodesBack i hi
  exact ⟨q.legal_iff_selects.mpr ⟨i, hd⟩, hd⟩

end Sys2Proof.Machine
end

section
/-! PROOFS. A step by its move (R82, R84, R89): the code it runs, the fault of an illegal position, the refusal of a
40-bit code that is no frame. -/

namespace Sys2Proof.Machine

theorem runCode_of_op {c : Code} {i : Instr} (s : State) (h : decode c = .op i) : runCode c s = exec i s := by
  simp [runCode, h]

/-- Settles O7, by the kinds of move: each but `rst` checks the position first. -/
theorem illegalPositionFaults : Obligations.IllegalPositionFaults := by
  intro s hl hrst
  cases hm : s.nextMove with
  | rst l => exact absurd hm (hrst l)
  | _ => simp [step, perform, hm, hl]

/-- Settles O8: what a frame decodes to, and that it is the result of `ENCODE` exactly when it reads as the floor. -/
theorem framesAreResultsOfEncode : Obligations.FramesAreResultsOfEncode := by
  intro s t hl
  have hstep : step (s.offer (.frame t)) = runCode (.frame t) s := step_eq_runCode hl rfl
  rcases decodeFrame_cases t with ⟨n, hn, ht, hd⟩ | hd
  · exact .inl ⟨n, hn, (eq_frameOf_tuningWord_iff t hn).mp ht, hstep.trans (runCode_of_op s hd)⟩
  · refine .inr ⟨?_, hstep.trans (by simp [runCode, decode, hd])⟩
    rintro ⟨n, hn, ht⟩
    rw [(eq_frameOf_tuningWord_iff t hn).mpr ht, decodeFrame_frameOf hn] at hd
    cases hd

/-- Settles O9: the step runs the fetched code, and the code is the one the next move offers. -/
theorem stepRunsTheDecodedOperation : Obligations.StepRunsTheDecodedOperation := by
  refine ⟨fun s c i hl hc hd => ?runs, fun _ _ => rfl, fun _ => rfl, fun s h => ⟨State.fetch_nil h, State.pop_nil h⟩⟩
  case runs => rw [step_eq_runCode hl hc, runCode_of_op _ hd]

/-- A code stored by its table row is stored as that code. -/
theorem State.withFetchWord_code (s : State) (c : Code) :
    s.withFetchWord (codeBits c) (codeNumber c) = s.withCode c := by
  simp only [State.withFetchWord, codeOfTable_code]

/-- The agent of the operations whose codes have the format of `c` (R80, R88). -/
def codeAgent : Code → Agent
  | .event _ => .eventUnit
  | .position _ => .sequencer
  | .frame _ | .word _ => .pure

/-- The position that a code sets where it is stored: its own for a position code, `SEQ` as it was for any other. -/
def State.storedPosition (s : State) : Code → SeqPos
  | .position c => SeqPos.ofCode c
  | _ => s.seq

/-- A code stored where the next step finds it is run on the state at its position. -/
theorem step_withCode {s : State} {c : Code} (hl : (s.storedPosition c).legal = true) :
    step (s.withCode c) = runCode c { s with seq := s.storedPosition c } := by
  cases c with
  | position c =>
    refine (step_eq_runCode hl rfl).trans ?_
    exact congrArg (fun d => runCode (.position d) _) (SeqPos.code_ofCode c)
  | _ => exact step_eq_runCode hl rfl

/-- What a code selects is performed by the agent of its format (R88). -/
theorem agent_of_decode {c : Code} {i : Instr} (h : decode c = .op i) : i.agent = codeAgent c := by
  cases c with
  | event ev => exact (encode_of_decodeEvent h).2
  | position c => exact (encode_of_decodePosition h).2
  | frame t => rcases decodeFrame_cases t with ⟨n, -, -, hd⟩ | hd <;> cases hd.symm.trans h; rfl
  | word w => cases h; rfl

/-- Settles O10: the row stores the code, the step runs it, and the code of an operation decodes to it. -/
theorem storedOperationRunsNext : Obligations.StoredOperationRunsNext := by
  intro s i hl hi
  have hd : decode (encode i) = .op i := encodedOperationDecodesBack i hi
  have hagent : i.agent = codeAgent (encode i) := agent_of_decode hd
  have hlegal : (s.storedPosition (encode i)).legal = true := by
    cases hc : encode i with
    | position c => exact (SeqPos.legal_of_encode (q := .ofCode c) (hc.trans (by rw [SeqPos.code_ofCode]))).1
    | _ => exact hl
  refine ⟨s.storedPosition (encode i), ?runs, ?_⟩
  case runs => rw [State.withFetchWord_code, step_withCode hlegal, runCode_of_op _ hd]
  rw [hagent]
  cases encode i with
  | position c => exact ⟨fun _ => congrArg Code.position (SeqPos.code_ofCode c).symm, fun h => absurd rfl h⟩
  | event | frame | word => exact ⟨fun h => (nomatch h), fun _ => rfl⟩

end Sys2Proof.Machine
end

section
/-! PROOFS. What an operation and a step can do, said once. An event operation writes the shared registers by a function
of them alone; a sequencer operation is one of the steps of `SeqStep`; every other move but reset leaves `Aside`. -/

namespace Sys2Proof.Machine

/-! ### every operation completes -/

/-- Settles O11, by cases over the operations: each meaning is a next state, whatever its tests decide. -/
theorem everyOperationCompletes : Obligations.EveryOperationCompletes := by
  intro i s
  cases i <;> exact ⟨_, rfl⟩

/-- Operations one after another complete, since each does. -/
theorem execAll_completes : ∀ (is : List Instr) (s : State), ∃ t, execAll is s = .next t
  | [], s => ⟨s, rfl⟩
  | i :: is, s => by
    obtain ⟨u, hu⟩ := everyOperationCompletes i s
    obtain ⟨t, ht⟩ := execAll_completes is u
    exact ⟨t, by rw [execAll_cons, hu, andThen_next, ht]⟩

/-! ### the registers the events share with the sequencer (R36) -/

/-- The four registers an event operation reads and writes (R36). -/
structure Shared where
  freq : FreqWord
  inc : IncWord
  latchA : Bool
  latchB : Bool

/-- The shared registers of a state. -/
def State.shared (s : State) : Shared := { freq := s.freq, inc := s.inc, latchA := s.latchA, latchB := s.latchB }

/-- The state with other contents in the shared registers. -/
def State.withShared (s : State) (d : Shared) : State :=
  { s with freq := d.freq, inc := d.inc, latchA := d.latchA, latchB := d.latchB }

/-- An event operation writes nothing but the shared registers, and what it writes there depends on nothing else. -/
theorem exec_event {e : Instr} (he : e.agent = .eventUnit) :
    ∃ g : Shared → Shared, ∀ s, exec e s = .next (s.withShared (g s.shared)) := by
  cases e with
  | chaLow => exact ⟨fun d => { d with latchA := false }, fun _ => rfl⟩
  | chaHigh =>
    exact ⟨fun d => { d with
      freq := if d.latchB then d.freq else wrap32 (sext32 d.freq + (zext20 d.inc : Int))
      latchA := true }, fun _ => rfl⟩
  | chbLow => exact ⟨fun d => { d with latchB := false }, fun _ => rfl⟩
  | chbHigh =>
    exact ⟨fun d => { d with
      freq := if d.latchA then d.freq else wrap32 (sext32 d.freq - (zext20 d.inc : Int))
      latchB := true }, fun _ => rfl⟩
  | btnPress => exact ⟨fun d => { d with inc := trunc20 (nextIncrement (zext20 d.inc)) }, fun _ => rfl⟩
  | _ => cases he

/-- A sequencer operation other than the polls neither reads nor writes the shared registers. -/
theorem exec_sending {i : Instr} (hi : i.agent = .sequencer) (hf : i ≠ .pollF) (hs : i ≠ .pollI) :
    ∃ h : State → State, (∀ s, exec i s = .next (h s)) ∧
      ∀ s, (h s).shared = s.shared ∧ ∀ d, h (s.withShared d) = (h s).withShared d := by
  cases i with
  | chaLow | chaHigh | chbLow | chbHigh | btnPress | encode | decode => cases hi
  | pollF => exact absurd rfl hf
  | pollI => exact absurd rfl hs
  | _ => exact ⟨_, fun _ => rfl, fun _ => ⟨rfl, fun _ => rfl⟩⟩

/-- Settles O22: an event operation writes the shared registers, which are the four named. -/
theorem eventsWriteOnlySharedRegisters : Obligations.EventsWriteOnlySharedRegisters := by
  intro i s hi
  obtain ⟨g, hg⟩ := exec_event hi
  exact ⟨_, hg s, rfl⟩

/-- Settles O23: the event works on the shared registers, the sequencer operation on the rest. -/
theorem eventsCommuteWithSending : Obligations.EventsCommuteWithSending := by
  intro e i s he hi hf hs
  obtain ⟨g, hg⟩ := exec_event he
  obtain ⟨h, hexec, hshared⟩ := exec_sending hi hf hs
  obtain ⟨hkeep, hcommute⟩ := hshared s
  simp only [execAll_cons, execAll_nil, hg, hexec, andThen_next, hcommute, hkeep]

/-! ### moves beside the sequencer -/

/-- What a move other than the sequencer's turn and reset can leave: the shared registers, the sample registers and the
model's own fields may differ, a decade step size stays one, and everything else is as it was (R36, R41, R110). -/
inductive Aside (s : State) : State → Prop where
  | intro (d : Shared) (l : InputPins) (stim : List Move) (codec : CodecResult) (draws : Nat)
      (hdecade : zext20 s.inc ∈ decades → zext20 d.inc ∈ decades) :
      Aside s { (s.withShared d).setPrevious l with stim := stim, codec := codec, draws := draws }

theorem Aside.refl (s : State) : Aside s s := .intro s.shared s.previousLevels s.stim s.codec s.draws id

theorem Aside.trans {s t u : State} (hst : Aside s t) (htu : Aside t u) : Aside s u := by
  obtain ⟨_, _, _, _, _, hst⟩ := hst
  obtain ⟨d, l, stim, codec, draws, htu⟩ := htu
  exact .intro d l stim codec draws fun h => htu (hst h)

theorem Aside.pop (s : State) : Aside s s.pop := .intro s.shared s.previousLevels s.stim.tail s.codec s.draws id

theorem Aside.setPrevious (s : State) (l : InputPins) : Aside s (s.setPrevious l) :=
  .intro s.shared l s.stim s.codec s.draws id

/-- The next of the seven decade values is one of them (R182, R183). -/
theorem nextIncrement_mem_decades {i : Nat} (h : i ∈ decades) : nextIncrement i ∈ decades := by
  revert i
  decide

/-- An event operation leaves a decade step size a decade (R183). -/
theorem exec_event_decade {e : Instr} {s t : State} (he : e.agent = .eventUnit) (h : exec e s = .next t)
    (hs : zext20 s.inc ∈ decades) : zext20 t.inc ∈ decades := by
  cases e with
  | btnPress =>
    cases h
    exact Eq.subst (motive := (· ∈ decades)) s.trunc20_nextIncrement_toNat.symm (nextIncrement_mem_decades hs)
  | chaLow | chaHigh | chbLow | chbHigh => cases h; exact hs
  | _ => cases he

theorem Aside.event {e : Instr} {s t : State} (he : e.agent = .eventUnit) (h : exec e s = .next t) : Aside s t := by
  obtain ⟨g, hg⟩ := exec_event he
  cases (hg s).symm.trans h
  exact .intro (g s.shared) s.previousLevels s.stim s.codec s.draws (exec_event_decade he (hg s))

/-- The codec writes nothing but the model's own record of its answer (R110). -/
theorem Aside.codec {i : Instr} {s t : State} (hi : i.agent = .pure) (h : exec i s = .next t) : Aside s t := by
  cases i with
  | encode f => cases h; exact .intro s.shared s.previousLevels s.stim _ _ id
  | decode w => cases h; exact .intro s.shared s.previousLevels s.stim _ s.draws id
  | _ => cases hi

theorem Aside.sample {l : InputPins} {s t : State} (h : samplePins l s = .next t) : Aside s t := by
  refine execAll_keeps (P := Aside s) _ (s.setPrevious l) t ?_ (.setPrevious s l) h
  exact fun e he a b ha hb => ha.trans (.event (sampleEvents_agent _ _ _ e he) hb)

/-! ### the sequencer's operations -/

/-- The pin writes of the sequencer with the frame `f` in `TXBUF`: the position, the write made there and the position
it leads to (R131 to R136, R140 to R145). -/
inductive PinStep (f : FrameWord) : SeqPos → PinWrite → SeqPos → Prop where
  | initResetRise : PinStep f (.phase 0#4) ⟨.ddsReset, true⟩ (.phase 1#4)
  | initResetFall : PinStep f (.phase 1#4) ⟨.ddsReset, false⟩ (.phase 2#4)
  | initClockRise : PinStep f (.phase 2#4) ⟨.ddsWclk, true⟩ (.phase 3#4)
  | initClockFall : PinStep f (.phase 3#4) ⟨.ddsWclk, false⟩ (.phase 4#4)
  | initLatchRise : PinStep f (.phase 4#4) ⟨.ddsFqud, true⟩ (.phase 5#4)
  | initLatchFall : PinStep f (.phase 5#4) ⟨.ddsFqud, false⟩ (.phase 6#4)
  | data (k : Fin 40) : PinStep f (.txBit k 0#2) ⟨.ddsData, f.getLsbD k⟩ (.txBit k 1#2)
  | clockRise (k : Fin 40) : PinStep f (.txBit k 1#2) ⟨.ddsWclk, true⟩ (.txBit k 2#2)
  | clockFall (k : Fin 40) (hk : k.val < 39) : PinStep f (.txBit k 2#2) ⟨.ddsWclk, false⟩ (.txBit (k + 1) 0#2)
  | lastClockFall : PinStep f (.txBit 39 2#2) ⟨.ddsWclk, false⟩ (.phase 8#4)
  | latchRise : PinStep f (.phase 8#4) ⟨.ddsFqud, true⟩ (.phase 9#4)
  | latchFall : PinStep f (.phase 9#4) ⟨.ddsFqud, false⟩ (.phase 10#4)

/-- Everything the sequencer's turn can do: one pin write, or a poll or a display of the Controller loop (R191 to
R196). -/
inductive SeqStep (s : State) : State → Prop where
  | write {w : PinWrite} {q : SeqPos} (h : PinStep s.txbuf s.seq w q) :
      SeqStep s ((s.writePin w.pin w.level).goto q)
  | sameFreq (hq : s.seq = .phase 6#4) (h : s.freqUnchanged = true) : SeqStep s (s.goto (.phase 11#4))
  | newFreq (hq : s.seq = .phase 6#4) (h : ¬ s.freqUnchanged = true) : SeqStep s s.captureFreq
  | showFreq (hq : s.seq = .phase 10#4) :
      SeqStep s ({ s.emit (.freq s.holdF) with snapF := s.holdF, snapFValid := true }.goto (.phase 11#4))
  | sameInc (hq : s.seq = .phase 11#4) (h : s.incUnchanged = true) : SeqStep s (s.goto (.phase 6#4))
  | newInc (hq : s.seq = .phase 11#4) (h : ¬ s.incUnchanged = true) : SeqStep s s.captureInc
  | showInc (hq : s.seq = .phase 12#4) :
      SeqStep s ({ s.emit (.step s.holdI) with snapI := s.holdI, snapIValid := true }.goto (.phase 6#4))

/-- A clock fall leads on to the next bit, or past the last one to the latch pulse (R133). -/
theorem PinStep.clockFall_afterBit (f : FrameWord) (k : Fin 40) :
    PinStep f (.txBit k 2#2) ⟨.ddsWclk, false⟩ (.afterBit k) := by
  by_cases hk : k.val = 39
  · rw [SeqPos.afterBit, if_pos hk, hk]
    exact .lastClockFall
  · rw [SeqPos.afterBit, if_neg hk]
    exact .clockFall k (by omega)

theorem SeqStep.write_at {s : State} {p q : SeqPos} {w : PinWrite} (hp : s.seq = p) (h : PinStep s.txbuf p w q) :
    SeqStep s ((s.writePin w.pin w.level).goto q) := .write (hp ▸ h)

/-- The sequencer operation that `SEQ` selects does one of these steps. -/
theorem SeqStep.of_exec {i : Instr} {s t : State} (hpos : encode i = .position s.seq.code) (h : exec i s = .next t) :
    SeqStep s t := by
  cases i with
  | chaLow | chaHigh | chbLow | chbHigh | btnPress | encode | decode => cases hpos
  | initRstHi => cases h; exact .write_at (SeqPos.eq_of_code hpos) .initResetRise
  | initRstLo => cases h; exact .write_at (SeqPos.eq_of_code hpos) .initResetFall
  | initClkHi => cases h; exact .write_at (SeqPos.eq_of_code hpos) .initClockRise
  | initClkLo => cases h; exact .write_at (SeqPos.eq_of_code hpos) .initClockFall
  | initUpdHi => cases h; exact .write_at (SeqPos.eq_of_code hpos) .initLatchRise
  | initUpdLo => cases h; exact .write_at (SeqPos.eq_of_code hpos) .initLatchFall
  | txData k => cases h; exact .write_at (SeqPos.eq_of_code hpos) (.data k)
  | txClkHi k => cases h; exact .write_at (SeqPos.eq_of_code hpos) (.clockRise k)
  | txClkLo k => cases h; exact .write_at (SeqPos.eq_of_code hpos) (.clockFall_afterBit s.txbuf k)
  | txUpdHi => cases h; exact .write_at (SeqPos.eq_of_code hpos) .latchRise
  | txUpdLo => cases h; exact .write_at (SeqPos.eq_of_code hpos) .latchFall
  | pollF =>
    have hq := SeqPos.eq_of_code hpos
    by_cases hsame : s.freqUnchanged = true
    · cases (exec_pollF_of_unchanged hsame).symm.trans h; exact .sameFreq hq hsame
    · cases (exec_pollF_of_changed hsame).symm.trans h; exact .newFreq hq hsame
  | dispF => cases h; exact .showFreq (SeqPos.eq_of_code hpos)
  | pollI =>
    have hq := SeqPos.eq_of_code hpos
    by_cases hsame : s.incUnchanged = true
    · cases (exec_pollI_of_unchanged hsame).symm.trans h; exact .sameInc hq hsame
    · cases (exec_pollI_of_changed hsame).symm.trans h; exact .newInc hq hsame
  | dispI => cases h; exact .showInc (SeqPos.eq_of_code hpos)

/-! ### a step by its move -/

/-- From a legal position the sequencer's turn completes, and does one of its steps on the state with the move taken. -/
theorem step_turn {s : State} (hl : s.seq.legal = true) (hm : s.nextMove = .turn) :
    ∃ t, step s = .next t ∧ SeqStep s.pop t := by
  obtain ⟨i, hd⟩ := s.seq.legal_iff_selects.mp hl
  obtain ⟨t, ht⟩ := everyOperationCompletes i s.pop
  refine ⟨t, ?_, .of_exec (encode_of_decodePosition hd).1 ht⟩
  rw [step_eq_runCode hl (by rw [State.fetch, hm]), runCode_of_op _ hd, ht]

theorem step_sample {s : State} {l : InputPins} (hl : s.seq.legal = true) (hm : s.nextMove = .sample l) :
    step s = samplePins l s.pop := by
  rw [step, hm]
  exact if_pos hl

/-- What a code on a port of the environment does stays beside the sequencer. -/
theorem Aside.runCode {c : Code} {s t : State} (h : runCode c s = .next t) (hc : ∀ p, c ≠ .position p) :
    Aside s t := by
  rcases runCode_eq_next h with ⟨-, rfl⟩ | ⟨i, hd, he⟩
  · exact .refl t
  · have hi := agent_of_decode hd
    cases c with
    | position p => exact absurd rfl (hc p)
    | event ev => exact .event hi he
    | frame f => exact .codec hi he
    | word w => exact .codec hi he

/-- Everything a step that answers a next state can have done. -/
theorem step_cases {s t : State} (h : step s = .next t) :
    (∃ l, s.nextMove = .rst l ∧ t = s.pop.resetBlock l) ∨
    (s.nextMove = .turn ∧ s.seq.legal = true ∧ SeqStep s.pop t) ∨
    (s.nextMove ≠ .turn ∧ s.seq.legal = true ∧ Aside s.pop t) := by
  rcases step_eq_next h with hrst | ⟨hl, -⟩
  · exact .inl hrst
  · cases hm : s.nextMove with
    | rst l => simp only [step, perform, hm] at h; cases h; exact .inl ⟨l, rfl, rfl⟩
    | turn =>
      obtain ⟨u, hu, hseq⟩ := step_turn hl hm
      cases hu.symm.trans h
      exact .inr (.inl ⟨rfl, hl, hseq⟩)
    | sample l => exact .inr (.inr ⟨nofun, hl, .sample ((step_sample hl hm).symm.trans h)⟩)
    | event ev =>
      rw [step_eq_runCode hl (c := .event ev) (by rw [State.fetch, hm])] at h
      exact .inr (.inr ⟨nofun, hl, .runCode h fun _ => nofun⟩)
    | frame f =>
      rw [step_eq_runCode hl (c := .frame f) (by rw [State.fetch, hm])] at h
      exact .inr (.inr ⟨nofun, hl, .runCode h fun _ => nofun⟩)
    | word w =>
      rw [step_eq_runCode hl (c := .word w) (by rw [State.fetch, hm])] at h
      exact .inr (.inr ⟨nofun, hl, .runCode h fun _ => nofun⟩)

/-- A property that the sequencer's steps, the moves beside it and reset keep is kept by every step. -/
theorem step_preserves {P : State → Prop} (turn : ∀ a b, P a → SeqStep a b → P b) (aside : ∀ a b, P a → Aside a b → P b)
    (reset : ∀ (a : State) l, P (a.resetBlock l)) {s t : State} (hs : P s) (h : step s = .next t) : P t := by
  have hpop : P s.pop := aside s s.pop hs (.pop s)
  rcases step_cases h with ⟨l, -, rfl⟩ | ⟨-, -, hseq⟩ | ⟨-, -, haside⟩
  · exact reset s.pop l
  · exact turn s.pop t hpop hseq
  · exact aside s.pop t hpop haside

/-- The same for a step that is not reset, which the property need not survive. -/
theorem step_preserves_of_not_rst {P : State → Prop} (turn : ∀ a b, P a → SeqStep a b → P b)
    (aside : ∀ a b, P a → Aside a b → P b) {s t : State} (hrst : ∀ l, s.nextMove ≠ .rst l) (hs : P s)
    (h : step s = .next t) : P t := by
  have hpop : P s.pop := aside s s.pop hs (.pop s)
  rcases step_cases h with ⟨l, hm, -⟩ | ⟨-, -, hseq⟩ | ⟨-, -, haside⟩
  · exact absurd hm (hrst l)
  · exact turn s.pop t hpop hseq
  · exact aside s.pop t hpop haside

/-- An operation takes no move. -/
theorem exec_stim {i : Instr} {s t : State} (h : exec i s = .next t) : t.stim = s.stim := by
  cases i with
  | pollF => cases h; split <;> rfl
  | pollI => cases h; split <;> rfl
  | _ => cases h; rfl

/-- A step takes one move. -/
theorem step_stim {s t : State} (h : step s = .next t) : t.stim = s.stim.tail := by
  rcases step_eq_next h with ⟨l, -, rfl⟩ | ⟨-, ⟨c, -, -, rfl⟩ | ⟨c, i, -, -, he⟩ | ⟨l, -, he⟩⟩
  · rfl
  · rfl
  · exact exec_stim he
  · exact execAll_keeps (P := fun u => u.stim = s.stim.tail) _ (s.pop.setPrevious l) t
      (fun i _ a b ha hb => (exec_stim hb).trans ha) rfl he

end Sys2Proof.Machine
end

section
/-! PROOFS. The block's registers (R84, R183, R192, R86, R225): the positions the sequencer moves to, the block's
invariant through every step, and what no step after the start-up sequence does. -/

namespace Sys2Proof.Machine

/-! ### positions -/

/-- The phases in which the frame `POLL_F` built is on its way or has just gone out. -/
def SeqPos.sending (q : SeqPos) : Prop := 7 ≤ q.ph.toNat ∧ q.ph.toNat ≤ 10

@[simp] theorem SeqPos.phase_ph (ph : BitVec 4) : (SeqPos.phase ph).ph = ph := rfl

@[simp] theorem SeqPos.txBit_ph (k : Nat) (s : BitVec 2) : (SeqPos.txBit k s).ph = 7#4 := rfl

@[simp] theorem SeqPos.txBit_s (k : Nat) (s : BitVec 2) : (SeqPos.txBit k s).s = s := rfl

/-- A bit index is read back from the position whole (R84). -/
theorem SeqPos.txBit_k {k : Nat} (hk : k < 40) (s : BitVec 2) : (SeqPos.txBit k s).k.toNat = k := by
  simp only [SeqPos.txBit, BitVec.toNat_ofNat]
  omega

theorem SeqPos.txBit_legal {k : Nat} (hk : k < 40) {s : BitVec 2} (hs : s.toNat < 3) :
    (SeqPos.txBit k s).legal = true := by
  rw [SeqPos.legal_iff]
  exact .inl ⟨rfl, by rw [SeqPos.txBit_k hk]; omega, Nat.le_of_lt_succ hs⟩

/-- A pin write leads to a legal position. -/
theorem PinStep.legal {f : FrameWord} {p q : SeqPos} {w : PinWrite} (h : PinStep f p w q) : q.legal = true := by
  cases h with
  | data k => exact SeqPos.txBit_legal k.isLt (by decide)
  | clockRise k => exact SeqPos.txBit_legal k.isLt (by decide)
  | clockFall k hk => exact SeqPos.txBit_legal (by omega) (by decide)
  | _ => decide

/-- Pin writes are made in the start-up sequence, or within a transmission and the display after it. -/
theorem PinStep.phase_cases {f : FrameWord} {p q : SeqPos} {w : PinWrite} (h : PinStep f p w q) :
    (p.ph.toNat ≤ 5 ∧ q.ph.toNat ≤ 6) ∨ (p.sending ∧ q.sending ∧ w.pin ≠ .ddsReset) := by
  cases h <;> simp [SeqPos.sending]

theorem SeqStep.legal {a b : State} (h : SeqStep a b) : b.seq.legal = true := by
  cases h with
  | write h => exact h.legal
  | _ => rfl

theorem Aside.seq {a b : State} (h : Aside a b) : b.seq = a.seq := by cases h; rfl

/-! ### moves that interleave with the sequencer -/

/-- An event code is idle, an operation's, or reserved (R82). -/
theorem decodeEvent_cases (ev : EventCode) :
    decodeEvent ev = .idle ∨ (∃ i, decodeEvent ev = .op i) ∨ decodeEvent ev = .reservedEvent := by
  unfold decodeEvent
  split
  · exact .inl rfl
  · split
    case h_6 => exact .inr (.inr rfl)
    all_goals exact .inr (.inl ⟨_, rfl⟩)

/-- From a legal position an interleaving move completes: the turn as one of the sequencer's steps, any other beside
it. -/
theorem step_interleaves {s : State} (hl : s.seq.legal = true) (hm : s.nextMove.interleaves = true) :
    ∃ t, step s = .next t ∧
      ((s.nextMove = .turn ∧ SeqStep s.pop t) ∨ (s.nextMove ≠ .turn ∧ Aside s.pop t)) := by
  have completes : ∃ t, step s = .next t := by
    cases h : s.nextMove with
    | turn => exact (step_turn hl h).imp fun _ ht => ht.1
    | sample l => exact step_sample hl h ▸ execAll_completes _ _
    | event ev =>
      rw [step_eq_runCode hl (c := .event ev) (by rw [State.fetch, h])]
      rcases decodeEvent_cases ev with hd | ⟨i, hd⟩ | hd
      · exact ⟨_, runCode_of_idle (.event ev) _ hd⟩
      · exact runCode_of_op (c := .event ev) s.pop hd ▸ everyOperationCompletes i s.pop
      · simp [h, Move.interleaves, hd] at hm
    | rst l | frame f | word w => rw [h] at hm; cases hm
  obtain ⟨t, ht⟩ := completes
  refine ⟨t, ht, ?_⟩
  rcases step_cases ht with ⟨l, hrst, -⟩ | ⟨hturn, -, hseq⟩ | ⟨hother, -, haside⟩
  · rw [hrst] at hm; cases hm
  · exact .inl ⟨hturn, hseq⟩
  · exact .inr ⟨hother, haside⟩

/-- Settles O12: the turn ends at a legal position, any other interleaving move leaves `SEQ` alone. -/
theorem interleavingNeverStops : Obligations.InterleavingNeverStops := by
  intro s hl hm
  obtain ⟨t, ht, ⟨-, hseq⟩ | ⟨-, haside⟩⟩ := step_interleaves hl hm
  · exact ⟨t, ht, hseq.legal⟩
  · exact ⟨t, ht, by rw [haside.seq]; exact hl⟩

/-! ### the block's invariant -/

theorem BlockInv.reset : BlockInv State.reset where
  legalSeq := by decide
  incDecade := by decide
  holdLegal := by decide
  snapLegal := nofun
  holdDecade := by decide
  snapDecade := nofun
  frameHeld := fun h => absurd h.1 (by decide)
  ctrlZero := by decide
  shownLegal := nofun

/-- Reset in mid-run leaves the registers the invariant names as `State.reset` does. -/
theorem BlockInv.resetBlock (s : State) (l : InputPins) : BlockInv (s.resetBlock l) :=
  ⟨BlockInv.reset.legalSeq, BlockInv.reset.incDecade, BlockInv.reset.holdLegal, BlockInv.reset.snapLegal,
    BlockInv.reset.holdDecade, BlockInv.reset.snapDecade, BlockInv.reset.frameHeld, BlockInv.reset.ctrlZero,
    BlockInv.reset.shownLegal⟩

theorem BlockInv.aside {a b : State} (ha : BlockInv a) (h : Aside a b) : BlockInv b := by
  obtain ⟨_, _, _, _, _, hdecade⟩ := h
  exact ⟨ha.legalSeq, hdecade ha.incDecade, ha.holdLegal, ha.snapLegal, ha.holdDecade, ha.snapDecade, ha.frameHeld,
    ha.ctrlZero, ha.shownLegal⟩

/-- The invariant names `SEQ` in three of its fields; a move of `SEQ` to a legal position keeps it if no transmission
and no display of the step size begins. -/
theorem BlockInv.goto {a : State} (ha : BlockInv a) {q : SeqPos} (hlegal : q.legal = true) (hshow : q.ph.toNat ≠ 12)
    (hsend : q.sending → a.sending) : BlockInv (a.goto q) :=
  ⟨hlegal, ha.incDecade, ha.holdLegal, ha.snapLegal, fun h => absurd h hshow, ha.snapDecade,
    fun h => ha.frameHeld (hsend h), ha.ctrlZero, ha.shownLegal⟩

/-- No field of the invariant is about the pins, `PINLOG` or the receiver. -/
theorem BlockInv.writePin {a : State} (ha : BlockInv a) (pin : Pin) (v : Bool) : BlockInv (a.writePin pin v) :=
  ⟨ha.legalSeq, ha.incDecade, ha.holdLegal, ha.snapLegal, ha.holdDecade, ha.snapDecade, ha.frameHeld, ha.ctrlZero,
    ha.shownLegal⟩

/-- The frame of a capture is that of the frequency captured (R191). -/
theorem State.captureFreq_frameHeld (a : State) : a.captureFreq.txbuf = frameOfFreq a.captureFreq.holdF := by
  have hlegal := clampFrequency_legal a.freqValue
  rw [State.captureFreq_txbuf, State.captureFreq_holdF, frameOfFreq, sext32_wrap32_of_legal hlegal,
    encodeWord_of_legal _ hlegal]

theorem BlockInv.captureFreq {a : State} (ha : BlockInv a) : BlockInv a.captureFreq where
  legalSeq := rfl
  incDecade := ha.incDecade
  holdLegal := by
    rw [State.captureFreq_holdF, sext32_wrap32_of_legal (clampFrequency_legal a.freqValue)]
    exact clampFrequency_legal a.freqValue
  snapLegal := ha.snapLegal
  holdDecade := fun h => absurd h (by simp [State.phase])
  snapDecade := ha.snapDecade
  frameHeld := fun _ => a.captureFreq_frameHeld
  ctrlZero := frameCtrl_frameOf _
  shownLegal := ha.shownLegal

/-- The loop's wrap is redundant on a decade value (R195). -/
theorem wrapIncrement_of_decade {i : Nat} (h : i ∈ decades) : wrapIncrement i = i := by
  revert i
  decide

theorem BlockInv.captureInc {a : State} (ha : BlockInv a) : BlockInv a.captureInc :=
  have hinc : zext20 a.captureInc.inc ∈ decades := by
    have hsame : wrapIncrement a.inc.toNat = a.inc.toNat := wrapIncrement_of_decade ha.incDecade
    rw [zext20, State.captureInc_inc_toNat, hsame]
    exact ha.incDecade
  { legalSeq := rfl
    incDecade := hinc
    holdLegal := ha.holdLegal
    snapLegal := ha.snapLegal
    holdDecade := fun _ => hinc
    snapDecade := ha.snapDecade
    frameHeld := fun h => absurd h.2 (by simp [State.phase])
    ctrlZero := ha.ctrlZero
    shownLegal := ha.shownLegal }

/-- Showing the captured frequency and taking it as the snapshot (R194). -/
theorem BlockInv.showFreq {a : State} (ha : BlockInv a) :
    BlockInv { a.emit (.freq a.holdF) with snapF := a.holdF, snapFValid := true } :=
  ⟨ha.legalSeq, ha.incDecade, ha.holdLegal, fun _ => ha.holdLegal, ha.holdDecade, ha.snapDecade, ha.frameHeld,
    ha.ctrlZero, List.forall_mem_append.mpr ⟨ha.shownLegal, List.forall_mem_singleton.mpr ha.holdLegal⟩⟩

/-- Showing the captured step size and taking it as the snapshot (R196). -/
theorem BlockInv.showInc {a : State} (ha : BlockInv a) (h12 : a.phase = 12) :
    BlockInv { a.emit (.step a.holdI) with snapI := a.holdI, snapIValid := true } :=
  have hdec := ha.holdDecade h12
  ⟨ha.legalSeq, ha.incDecade, ha.holdLegal, ha.snapLegal, ha.holdDecade, fun _ => hdec, ha.frameHeld, ha.ctrlZero,
    List.forall_mem_append.mpr ⟨ha.shownLegal, List.forall_mem_singleton.mpr hdec⟩⟩

/-- To a phase that neither sends nor shows the step size the sequencer may go with the invariant kept. -/
theorem BlockInv.goto_phase {a : State} (ha : BlockInv a) {ph : BitVec 4} (hph : ph = 6#4 ∨ ph = 11#4) :
    BlockInv (a.goto (.phase ph)) := by
  rcases hph with rfl | rfl
  · exact ha.goto (by decide) (by decide) fun h => absurd h.1 (by decide)
  · exact ha.goto (by decide) (by decide) fun h => absurd h.2 (by decide)

theorem BlockInv.seqStep {a b : State} (ha : BlockInv a) (h : SeqStep a b) : BlockInv b := by
  cases h with
  | write h =>
    refine (ha.writePin _ _).goto h.legal ?_ ?_
    · rcases h.phase_cases with ⟨-, hq⟩ | ⟨-, ⟨-, hq⟩, -⟩ <;> omega
    · rintro ⟨hq, -⟩
      rcases h.phase_cases with ⟨-, hq'⟩ | ⟨hp, -⟩
      · omega
      · exact hp
  | sameFreq => exact ha.goto_phase (.inr rfl)
  | newFreq => exact ha.captureFreq
  | showFreq => exact ha.showFreq.goto_phase (.inr rfl)
  | sameInc => exact ha.goto_phase (.inl rfl)
  | newInc => exact ha.captureInc
  | showInc hq => exact (ha.showInc (by rw [State.phase, hq]; rfl)).goto_phase (.inl rfl)

/-- Settles O55: the sequencer's steps keep the invariant, the moves beside it do, and reset restores it. -/
theorem stepKeepsBlockInvariant : Obligations.StepKeepsBlockInvariant :=
  fun _ _ hs h => step_preserves (fun _ _ ha hab => ha.seqStep hab) (fun _ _ ha hab => ha.aside hab)
    BlockInv.resetBlock hs h

/-! ### what no step does -/

/-- The state `a` is past the start-up sequence, and since `s` the chip's reset line has not been written. -/
def ResetLineIdle (s a : State) : Prop :=
  6 ≤ a.phase ∧ a.pins.ddsReset = s.pins.ddsReset ∧ ∃ ws, a.pinlog = s.pinlog ++ ws ∧ ∀ w ∈ ws, w.pin ≠ .ddsReset

theorem ResetLineIdle.aside {s a b : State} (ha : ResetLineIdle s a) (h : Aside a b) : ResetLineIdle s b := by
  cases h; exact ha

/-- A write of another pin leaves the reset line as it was. -/
theorem Pins.set_ddsReset (p : Pins) {pin : Pin} (v : Bool) (h : pin ≠ .ddsReset) :
    (p.set pin v).ddsReset = p.ddsReset :=
  Pins.get_set_other p v h.symm

theorem ResetLineIdle.seqStep {s a b : State} (ha : ResetLineIdle s a) (h : SeqStep a b) : ResetLineIdle s b := by
  obtain ⟨hphase, hlevel, ws, hlog, hws⟩ := ha
  cases h with
  | @write w _ h =>
    rcases h.phase_cases with ⟨hp, -⟩ | ⟨-, ⟨hq, -⟩, hpin⟩
    · exact absurd hphase (by simp only [State.phase]; omega)
    · refine ⟨?_, (Pins.set_ddsReset _ _ hpin).trans hlevel, ws ++ [w], ?_, ?_⟩
      · exact Nat.le_of_succ_le hq
      · rw [State.goto_pinlog, State.writePin_pinlog, hlog, List.append_assoc]
      · exact List.forall_mem_append.mpr ⟨hws, List.forall_mem_singleton.mpr hpin⟩
  | _ => exact ⟨by simp [State.phase], hlevel, ws, hlog, hws⟩

/-- Settles O46: past the start-up sequence the sequencer stays there and writes other pins than the reset line. -/
theorem startUpIsNeverRepeated : Obligations.StartUpIsNeverRepeated :=
  fun s _ hphase hrst h => step_preserves_of_not_rst (P := ResetLineIdle s) (fun _ _ ha hab => ha.seqStep hab)
    (fun _ _ ha hab => ha.aside hab) hrst ⟨hphase, rfl, [], by simp, nofun⟩ h

/-- Settles O51: the flag is sticky in every pin write, and no other operation touches the receiver. -/
theorem brokenProtocolStaysBroken : Obligations.BrokenProtocolStaysBroken := by
  intro s t hbad hrst h
  refine step_preserves_of_not_rst (P := fun a => a.rx.bad = true) ?turn ?aside hrst hbad h
  case turn =>
    intro a b ha hab
    cases hab with
    | write => exact Receiver.onWrite_bad _ _ _ _ _ ha
    | _ => exact ha
  case aside =>
    intro a b ha hab
    cases hab
    exact ha

end Sys2Proof.Machine
end

section
/-! PROOFS. The reference receiver (R150 to R155): the writes that leave it alone, the chip's reset, and that it and the
pins stay functions of `PINLOG`. -/

namespace Sys2Proof.Machine

/-- A write of the data line acts on nothing (R151). -/
theorem Receiver.onWrite_data {r : Receiver} (run place : Nat) (p : Pins) (v : Bool) (hr : r.bad = false) :
    r.onWrite run place p ⟨.ddsData, v⟩ = r := by
  simp [Receiver.onWrite, hr]

/-- In a receiver that is not bad, raising the low reset line is the chip's reset (R151, R154). -/
theorem Receiver.onWrite_resetRise {r : Receiver} {p : Pins} (run place : Nat) (hr : r.bad = false)
    (hp : p.ddsReset = false) : r.onWrite run place p ⟨.ddsReset, true⟩ = r.onReset run place := by
  simp [Receiver.onWrite, Pins.get, hr, hp]

/-- Settles O47: a write that does not rise, and a write of the data line. -/
theorem onlyRisingWritesAct : Obligations.OnlyRisingWritesAct := by
  intro r run place p ⟨pin, level⟩ hr h
  rcases h with hlow | hhigh | rfl
  · exact Receiver.onWrite_notRising r run place p _ hr (.inl hlow)
  · exact Receiver.onWrite_notRising r run place p _ hr (.inr hhigh)
  · exact Receiver.onWrite_data run place p level hr

/-- Settles O50: the write is the chip's reset, which leaves the free value in `RX.shift`. -/
theorem chipResetForgetsTheFrame : Obligations.ChipResetForgetsTheFrame :=
  fun _ run place _ hr hp => ⟨Config.rxShift run place, Receiver.onWrite_resetRise run place hr hp⟩

/-! ### the receiver and the pins as functions of `PINLOG` -/

/-- The receiver reacts to the last entry of a log on what the entries before it leave (R151). -/
theorem Receiver.replay_concat (run : Nat) (log : List PinWrite) (w : PinWrite) :
    Receiver.replay run (log ++ [w]) = (Receiver.replay run log).onWrite run log.length (Pins.ofLog run log) w := by
  simp only [Receiver.replay, Pins.ofLog, Receiver.replayFrom_append, Nat.zero_add]

theorem Pins.ofLog_concat (run : Nat) (log : List PinWrite) (w : PinWrite) :
    Pins.ofLog run (log ++ [w]) = (Pins.ofLog run log).set w.pin w.level := by
  simp only [Pins.ofLog, Receiver.replayFrom_append]

/-- One more entry of `PINLOG` is replayed as it was performed (R43, R151). -/
theorem LogInv.writePin {a : State} (ha : LogInv a) (pin : Pin) (v : Bool) : LogInv (a.writePin pin v) := by
  obtain ⟨hrx, hpins⟩ := ha
  constructor
  · rw [State.writePin_rx, State.writePin_runs, State.writePin_pinlog, Receiver.replay_concat, ← hrx, ← hpins]
  · rw [State.writePin_pins, State.writePin_runs, State.writePin_pinlog, Pins.ofLog_concat, ← hpins]

theorem LogInv.seqStep {a b : State} (ha : LogInv a) (h : SeqStep a b) : LogInv b := by
  cases h with
  | write => exact ha.writePin _ _
  | _ => exact ha

/-- An empty log leaves the receiver and the pins at their initial values, whatever the number of resets. -/
theorem LogInv.resetBlock (s : State) (l : InputPins) : LogInv (s.resetBlock l) := ⟨rfl, rfl⟩

/-- Settles O58: only pin writes touch the receiver, the pins and `PINLOG`, and each is replayed as performed. -/
theorem stepKeepsReceiverOfLog : Obligations.StepKeepsReceiverOfLog :=
  fun _ _ hs h => step_preserves (fun _ _ ha hab => ha.seqStep hab) (fun _ _ ha hab => by cases hab; exact ha)
    LogInv.resetBlock hs h

end Sys2Proof.Machine
end

section
/-! PROOFS. The wire (R33, R147, R152 to R156): the invariant in three parts, the pin levels, the bits received and the
frame committed, each through every pin write, and what follows for the word the chip acts on. -/

namespace Sys2Proof.Machine

/-! ### the parts of the wire's invariant -/

/-- The pins at the position `q` with the frame `f` in `TXBUF` (R33, R132, R147). -/
structure PinLevels (q : SeqPos) (f : FrameWord) (p : Pins) : Prop where
  resetLevel : p.ddsReset = decide (q.ph.toNat = 1)
  wclkLevel : p.ddsWclk = decide (q.ph.toNat = 3 ∨ (q.ph.toNat = 7 ∧ q.s = 2#2))
  fqudLevel : p.ddsFqud = decide (q.ph.toNat = 5 ∨ q.ph.toNat = 9)
  dataHeld : q.ph.toNat = 7 → q.s ≠ 0#2 → p.ddsData = f.getLsbD q.k.toNat
  dataRest : q.ph.toNat ≠ 7 → p.ddsData = false

/-- The receiver at the position `q` of a transmission of `f`: never broken, in the stage of the phase, with the bits
sent (R152, R156 a, b). -/
structure Receives (q : SeqPos) (f : FrameWord) (r : Receiver) : Prop where
  notBad : r.bad = false
  stage : r.stage = stageAt q.ph.toNat
  count : r.cnt = countAt q
  received : ∀ j, j < r.cnt → r.shift.getLsbD (Config.frameBits - r.cnt + j) = f.getLsbD j

/-- The positions where a frame was just latched and its frequency is not shown yet. -/
def SeqPos.latched (q : SeqPos) : Bool := decide (q.ph.toNat = 9 ∨ q.ph.toNat = 10)

/-- The committed frame at the position `q`, with `f` in `TXBUF` and `snap` in `SNAP_F`, `valid` telling whether that is
a snapshot (R156 c, d). -/
structure Commits (q : SeqPos) (f : FrameWord) (valid : Bool) (snap : FreqWord) (r : Receiver) : Prop where
  committed : q.latched = true → r.active = f
  activeValid : r.activeValid = (valid || q.latched)
  early : q.ph.toNat < 6 → valid = false
  observed : q.ph.toNat = 11 ∨ q.ph.toNat = 12 → valid = true
  shown : valid = true → q.latched = false → r.active = frameOfFreq snap

theorem wireInv_iff (s : State) :
    WireInv s ↔ BlockInv s ∧ PinLevels s.seq s.txbuf s.pins ∧ Receives s.seq s.txbuf s.rx ∧
      Commits s.seq s.txbuf s.snapFValid s.snapF s.rx := by
  constructor
  · intro h
    exact ⟨h.toBlockInv, ⟨h.resetLevel, h.wclkLevel, h.fqudLevel, h.dataHeld, h.dataRest⟩,
      ⟨h.notBad, h.stage, h.count, h.received⟩,
      ⟨fun hq => h.committed (of_decide_eq_true hq), h.valid, h.early, h.observed,
        fun hv hq => h.shown hv (fun h9 => of_decide_eq_false hq (.inl h9))
          fun h10 => of_decide_eq_false hq (.inr h10)⟩⟩
  · rintro ⟨hblock, hp, hr, hc⟩
    exact ⟨hblock, hp.resetLevel, hp.wclkLevel, hp.fqudLevel, hp.dataHeld, hp.dataRest, hr.notBad, hr.stage, hr.count,
      hr.received, fun hq => hc.committed (decide_eq_true hq), hc.activeValid, hc.early, hc.observed,
      fun hv h9 h10 => hc.shown hv (decide_eq_false fun h => h.elim h9 h10)⟩

/-! ### the pin levels -/

/-- Between transmissions all four pins are low. -/
theorem pinLevels_idle {ph : BitVec 4} (f : FrameWord) (p : Pins) (h : ph = 6#4 ∨ ph = 10#4 ∨ ph = 11#4 ∨ ph = 12#4) :
    PinLevels (.phase ph) f p ↔ p = Pins.initial := by
  constructor
  · rintro ⟨hr, hw, hf, -, hd⟩
    obtain ⟨_, _, _, _⟩ := p
    rcases h with rfl | rfl | rfl | rfl <;> simp_all [Pins.initial, Config.pinReset]
  · rintro rfl
    rcases h with rfl | rfl | rfl | rfl <;> exact ⟨rfl, rfl, rfl, nofun, fun _ => rfl⟩

/-- A transmission starts with all four pins low. -/
theorem pinLevels_firstBit (f : FrameWord) : PinLevels (.txBit 0 0#2) f Pins.initial :=
  ⟨rfl, rfl, rfl, fun _ h => absurd rfl h, fun _ => rfl⟩

/-- A frame with a zero control byte ends with its top bit low (R86). -/
theorem getLsbD_39_of_ctrl {f : FrameWord} (hf : frameCtrl f = Config.ctrlByte) : f.getLsbD 39 = false := by
  rw [← frameOf_frameWord hf]
  exact frameOf_ctrl_zero _ (by omega)

/-- Each pin write takes the levels of its position to those of the next. -/
theorem PinLevels.write {f : FrameWord} {p q : SeqPos} {w : PinWrite} {pins : Pins} (hp : PinLevels p f pins)
    (h : PinStep f p w q) (hf : frameCtrl f = Config.ctrlByte) : PinLevels q f (pins.set w.pin w.level) := by
  obtain ⟨hr, hw, hu, hheld, hrest⟩ := hp
  cases h with
  | data k =>
    exact ⟨hr, hw, hu, fun _ _ => by rw [SeqPos.txBit_k k.isLt]; rfl, fun h => absurd rfl h⟩
  | clockRise k =>
    have hbit := hheld rfl (by simp)
    rw [SeqPos.txBit_k k.isLt] at hbit
    exact ⟨hr, rfl, hu, fun _ _ => by rw [SeqPos.txBit_k k.isLt]; exact hbit, fun h => absurd rfl h⟩
  | clockFall k => exact ⟨hr, rfl, hu, fun _ h => absurd rfl h, fun h => absurd rfl h⟩
  | lastClockFall => exact ⟨hr, rfl, hu, nofun, fun _ => (hheld rfl (by decide)).trans (getLsbD_39_of_ctrl hf)⟩
  | initResetRise | initResetFall => exact ⟨rfl, hw, hu, nofun, fun _ => hrest (by decide)⟩
  | initClockRise | initClockFall => exact ⟨hr, rfl, hu, nofun, fun _ => hrest (by decide)⟩
  | initLatchRise | initLatchFall | latchRise | latchFall => exact ⟨hr, hw, rfl, nofun, fun _ => hrest (by decide)⟩

/-! ### the bits received -/

@[simp] theorem countAt_txBit {k : Nat} (hk : k < 40) (s : BitVec 2) :
    countAt (.txBit k s) = if s = 2#2 then k + 1 else k := by
  simp [countAt, SeqPos.txBit_k hk]

/-- Between two positions of one stage and one count a receiver left alone keeps its part. -/
theorem Receives.move {f : FrameWord} {p q : SeqPos} {r : Receiver} (hr : Receives p f r)
    (hstage : stageAt q.ph.toNat = stageAt p.ph.toNat) (hcount : countAt q = countAt p) : Receives q f r :=
  ⟨hr.notBad, hr.stage.trans hstage.symm, hr.count.trans hcount.symm, hr.received⟩

/-- With no bit counted, nothing is said of the frame. -/
theorem Receives.of_count_zero {f : FrameWord} {q : SeqPos} {r : Receiver} (hbad : r.bad = false)
    (hstage : r.stage = stageAt q.ph.toNat) (hcnt : r.cnt = 0) (hq : countAt q = 0) : Receives q f r :=
  ⟨hbad, hstage, hcnt.trans hq.symm, fun j hj => absurd hj (by omega)⟩

/-- One more bit shifted in at the top is the next bit of the frame (R152). -/
theorem received_shiftIn {f x : FrameWord} {k : Nat} (hk : k < 40)
    (h : ∀ j, j < k → x.getLsbD (Config.frameBits - k + j) = f.getLsbD j) (j : Nat) (hj : j < k + 1) :
    (BitVec.ofBool (f.getLsbD k) ++ x.extractLsb' 1 39).getLsbD (Config.frameBits - (k + 1) + j) = f.getLsbD j := by
  by_cases hjk : j = k
  · subst hjk
    rw [show Config.frameBits - (j + 1) + j = 39 by simp only [Config.frameBits]; omega, shiftIn_getLsbD_top]
  · rw [shiftIn_getLsbD_below _ _ (by simp only [Config.frameBits]; omega), ← h j (by omega)]
    congr 1
    simp only [Config.frameBits]
    omega

/-- Each pin write takes what the receiver has at its position to what it has at the next. -/
theorem Receives.write {f : FrameWord} {p q : SeqPos} {w : PinWrite} {pins : Pins} {r : Receiver} (hr : Receives p f r)
    (h : PinStep f p w q) (hp : PinLevels p f pins) (run place : Nat) :
    Receives q f (r.onWrite run place pins w) := by
  have hbad := hr.notBad
  have hfall : w.level = false → r.onWrite run place pins w = r :=
    fun hw => Receiver.onWrite_notRising r run place pins w hbad (.inl hw)
  cases h with
  | initResetFall | initClockFall | initLatchFall | latchFall | lastClockFall =>
    rw [hfall rfl]
    exact hr.move rfl rfl
  | clockFall k hk =>
    rw [hfall rfl]
    refine hr.move rfl ?_
    rw [countAt_txBit (by omega), countAt_txBit k.isLt]
    rfl
  | data k =>
    rw [Receiver.onWrite_data run place pins _ hbad]
    refine hr.move rfl ?_
    rw [countAt_txBit k.isLt, countAt_txBit k.isLt]
    rfl
  | initResetRise =>
    rw [Receiver.onWrite_resetRise run place hbad hp.resetLevel]
    exact .of_count_zero hbad rfl rfl rfl
  | initClockRise =>
    rw [Receiver.onWrite_clockRise run place hbad hp.wclkLevel, Receiver.onClock_resetSeen _ _ _ hr.stage]
    exact .of_count_zero hbad rfl hr.count rfl
  | initLatchRise =>
    rw [Receiver.onWrite_latchRise run place hbad hp.fqudLevel, Receiver.onUpdate_clkSeen _ _ hr.stage]
    exact .of_count_zero hbad rfl rfl rfl
  | latchRise =>
    rw [Receiver.onWrite_latchRise run place hbad hp.fqudLevel, Receiver.onUpdate_wholeFrame _ _ hr.stage hr.count]
    exact .of_count_zero hbad hr.stage rfl rfl
  | clockRise k =>
    have hcnt : r.cnt = k := hr.count.trans (by rw [countAt_txBit k.isLt]; rfl)
    have hdata : pins.ddsData = f.getLsbD k := by
      rw [hp.dataHeld rfl (by simp), SeqPos.txBit_k k.isLt]
    rw [Receiver.onWrite_clockRise run place hbad hp.wclkLevel, Receiver.onClock_serial _ _ _ hr.stage, hdata, hcnt]
    refine ⟨hbad, hr.stage, ?_, received_shiftIn k.isLt fun j hj => ?_⟩
    · rw [countAt_txBit k.isLt]
      rfl
    · rw [← hcnt]
      exact hr.received j (hcnt ▸ hj)

/-- With all 40 bits counted, what was received is the frame. -/
theorem Receives.shift_eq {f : FrameWord} {r : Receiver} (hr : Receives (.phase 8#4) f r) : r.shift = f := by
  apply BitVec.eq_of_getLsbD_eq
  intro j hj
  have hcnt : r.cnt = 40 := hr.count
  have hbit := hr.received j (by omega)
  rwa [hcnt, Config.frameBits, Nat.sub_self, Nat.zero_add] at hbit

/-! ### the frame committed -/

/-- A pin write leaves and enters the positions after the latch together, but for the latch pulse's rise. -/
theorem PinStep.latched {f : FrameWord} {p q : SeqPos} {w : PinWrite} (h : PinStep f p w q) (hp : p.ph ≠ 8#4) :
    q.latched = p.latched := by
  cases h with
  | latchRise => exact absurd rfl hp
  | _ => rfl

/-- The only pin write in phase 8 is the latch pulse's rise. -/
theorem PinStep.of_phase_eight {f : FrameWord} {p q : SeqPos} {w : PinWrite} (h : PinStep f p w q) (hp : p.ph = 8#4) :
    p = .phase 8#4 ∧ w = ⟨.ddsFqud, true⟩ ∧ q = .phase 9#4 := by
  cases h with
  | latchRise => exact ⟨rfl, rfl, rfl⟩
  | _ => cases hp

/-- But for the latch pulse's rise, no pin write changes the committed frame or its flag. -/
theorem Commits.onWrite_active {f : FrameWord} {p q : SeqPos} {w : PinWrite} {pins : Pins} {r : Receiver} {v : Bool}
    {snap : FreqWord} (hc : Commits p f v snap r) (h : PinStep f p w q) (hp : PinLevels p f pins) (hr : Receives p f r)
    (h8 : p.ph ≠ 8#4) (run place : Nat) :
    (r.onWrite run place pins w).active = r.active ∧ (r.onWrite run place pins w).activeValid = r.activeValid := by
  have hbad := hr.notBad
  have hfall : w.level = false → r.onWrite run place pins w = r :=
    fun hw => Receiver.onWrite_notRising r run place pins w hbad (.inl hw)
  cases h with
  | initResetFall | initClockFall | initLatchFall | latchFall | clockFall | lastClockFall =>
    rw [hfall rfl]
    exact ⟨rfl, rfl⟩
  | data k =>
    rw [Receiver.onWrite_data run place pins _ hbad]
    exact ⟨rfl, rfl⟩
  | initResetRise =>
    rw [Receiver.onWrite_resetRise run place hbad hp.resetLevel]
    refine ⟨rfl, (hc.activeValid.trans ?_).symm⟩
    rw [hc.early (by decide)]
    rfl
  | initClockRise =>
    rw [Receiver.onWrite_clockRise run place hbad hp.wclkLevel, Receiver.onClock_resetSeen _ _ _ hr.stage]
    exact ⟨rfl, rfl⟩
  | initLatchRise =>
    rw [Receiver.onWrite_latchRise run place hbad hp.fqudLevel, Receiver.onUpdate_clkSeen _ _ hr.stage]
    exact ⟨rfl, rfl⟩
  | clockRise k =>
    rw [Receiver.onWrite_clockRise run place hbad hp.wclkLevel, Receiver.onClock_serial _ _ _ hr.stage]
    exact ⟨rfl, rfl⟩
  | latchRise => exact absurd rfl h8

/-- The latch pulse's rise commits the frame in `TXBUF` whole (R153). -/
theorem Receives.onWrite_latch {f : FrameWord} {pins : Pins} {r : Receiver} (hr : Receives (.phase 8#4) f r)
    (hp : PinLevels (.phase 8#4) f pins) (run place : Nat) :
    (r.onWrite run place pins ⟨.ddsFqud, true⟩).active = f ∧
      (r.onWrite run place pins ⟨.ddsFqud, true⟩).activeValid = true := by
  rw [Receiver.onWrite_latchRise run place hr.notBad hp.fqudLevel, Receiver.onUpdate_wholeFrame _ _ hr.stage hr.count]
  exact ⟨hr.shift_eq, rfl⟩

/-- Between positions on the same side of the latch a committed frame left alone keeps its part. -/
theorem Commits.move {f g : FrameWord} {p q : SeqPos} {r r' : Receiver} {v : Bool} {snap : FreqWord}
    (hc : Commits p f v snap r) (hactive : r'.active = r.active) (hvalid : r'.activeValid = r.activeValid)
    (hlatched : q.latched = p.latched) (hframe : q.latched = true → g = f) (hearly : q.ph.toNat < 6 → p.ph.toNat < 6)
    (hobserved : q.ph.toNat = 11 ∨ q.ph.toNat = 12 → v = true) : Commits q g v snap r' where
  committed hq := by rw [hactive, hframe hq, hc.committed (hlatched ▸ hq)]
  activeValid := by rw [hvalid, hc.activeValid, hlatched]
  early hq := hc.early (hearly hq)
  observed := hobserved
  shown hv hq := hactive.trans (hc.shown hv (hlatched ▸ hq))

/-- Each pin write takes the committed frame of its position to that of the next. -/
theorem Commits.write {f : FrameWord} {p q : SeqPos} {w : PinWrite} {pins : Pins} {r : Receiver} {v : Bool}
    {snap : FreqWord} (hc : Commits p f v snap r) (h : PinStep f p w q) (hp : PinLevels p f pins) (hr : Receives p f r)
    (run place : Nat) : Commits q f v snap (r.onWrite run place pins w) := by
  by_cases h8 : p.ph = 8#4
  · obtain ⟨rfl, rfl, rfl⟩ := h.of_phase_eight h8
    obtain ⟨hactive, hvalid⟩ := hr.onWrite_latch hp run place
    exact ⟨fun _ => hactive, hvalid.trans (Bool.or_true v).symm, fun h => absurd h (by decide),
      fun h => absurd h (by decide), fun _ h => absurd h (by decide)⟩
  · obtain ⟨hactive, hvalid⟩ := hc.onWrite_active h hp hr h8 run place
    refine hc.move hactive hvalid (h.latched h8) (fun _ => rfl) ?_ ?_
    · rcases h.phase_cases with ⟨hp5, -⟩ | ⟨-, ⟨hq7, -⟩, -⟩ <;> omega
    · rcases h.phase_cases with ⟨-, hq6⟩ | ⟨-, ⟨-, hq10⟩, -⟩ <;> omega

/-! ### the whole invariant -/

theorem WireInv.reset : WireInv State.reset := by
  refine (wireInv_iff _).mpr ⟨BlockInv.reset, ⟨rfl, rfl, rfl, nofun, fun _ => rfl⟩, .of_count_zero rfl rfl rfl rfl, ?_⟩
  exact ⟨nofun, rfl, fun _ => rfl, fun h => absurd h (by decide), nofun⟩

/-- Reset in mid-run leaves what the invariant names as `State.reset` does. -/
theorem WireInv.resetBlock (s : State) (l : InputPins) : WireInv (s.resetBlock l) :=
  (wireInv_iff _).mpr ⟨.resetBlock s l, ((wireInv_iff _).mp WireInv.reset).2⟩

theorem WireInv.aside {a b : State} (ha : WireInv a) (h : Aside a b) : WireInv b := by
  obtain ⟨hblock, hwire⟩ := (wireInv_iff a).mp ha
  refine (wireInv_iff b).mpr ⟨hblock.aside h, ?_⟩
  cases h
  exact hwire

theorem WireInv.write {a : State} (ha : WireInv a) {w : PinWrite} {q : SeqPos} (h : PinStep a.txbuf a.seq w q) :
    WireInv ((a.writePin w.pin w.level).goto q) := by
  obtain ⟨hblock, hp, hr, hc⟩ := (wireInv_iff a).mp ha
  exact (wireInv_iff _).mpr ⟨hblock.seqStep (.write h), hp.write h hblock.ctrlZero, hr.write h hp _ _,
    hc.write h hp hr _ _⟩

/-- The wire between transmissions: the pins low, the receiver in serial mode with no bit counted, and, with a snapshot
taken, the frame of its frequency committed (R156 c). -/
structure WireAtRest (s : State) : Prop where
  low : s.pins = Pins.initial
  notBad : s.rx.bad = false
  stage : s.rx.stage = .serial
  count : s.rx.cnt = 0
  activeValid : s.rx.activeValid = s.snapFValid
  shown : s.snapFValid = true → s.rx.active = frameOfFreq s.snapF

/-- At the polls and at the display of the step size the wire is at rest. -/
theorem WireInv.atRest {s : State} (h : WireInv s) {ph : BitVec 4} (hq : s.seq = .phase ph)
    (hph : ph = 6#4 ∨ ph = 11#4 ∨ ph = 12#4) : WireAtRest s := by
  obtain ⟨-, hp, hr, hc⟩ := (wireInv_iff s).mp h
  rw [hq] at hp hr hc
  have hlow := (pinLevels_idle _ _ (by tauto)).mp hp
  rcases hph with rfl | rfl | rfl <;>
    exact ⟨hlow, hr.notBad, hr.stage, hr.count, hc.activeValid.trans (Bool.or_false _), fun hv => hc.shown hv rfl⟩

/-- With the wire at rest, what is left of the invariant is the pins and, after the first poll, a snapshot (R200). -/
theorem WireAtRest.wireInv_of {s : State} (h : WireAtRest s) (hblock : BlockInv s)
    (hpins : PinLevels s.seq s.txbuf s.pins) (hstage : stageAt s.seq.ph.toNat = .serial) (hcount : countAt s.seq = 0)
    (hlatched : s.seq.latched = false) (hpast : 6 ≤ s.seq.ph.toNat)
    (hobserved : s.seq.ph.toNat = 11 ∨ s.seq.ph.toNat = 12 → s.snapFValid = true) : WireInv s := by
  refine (wireInv_iff s).mpr
    ⟨hblock, hpins, .of_count_zero h.notBad (h.stage.trans hstage.symm) h.count hcount, ?_⟩
  exact
    { committed := fun hq => by rw [hlatched] at hq; cases hq
      activeValid := by rw [h.activeValid, hlatched, Bool.or_false]
      early := fun hq => absurd hq (by omega)
      observed := hobserved
      shown := fun hv _ => h.shown hv }

/-- With the wire at rest the invariant holds at the polls and at the display of the step size, at the later two once a
frequency was shown (R200). -/
theorem WireAtRest.wireInv {s : State} (h : WireAtRest s) (hblock : BlockInv s) {ph : BitVec 4} (hq : s.seq = .phase ph)
    (hph : ph = 6#4 ∨ s.snapFValid = true ∧ (ph = 11#4 ∨ ph = 12#4)) : WireInv s := by
  refine h.wireInv_of hblock ?_ ?_ ?_ ?_ ?_ ?_ <;> rw [hq]
  · exact (pinLevels_idle _ _ (by tauto)).mpr h.low
  all_goals rcases hph with rfl | ⟨hv, rfl | rfl⟩
  all_goals simp [stageAt, countAt, SeqPos.latched, *]

/-- With the wire at rest a transmission can begin. -/
theorem WireAtRest.wireInv_firstBit {s : State} (h : WireAtRest s) (hblock : BlockInv s) (hq : s.seq = .txBit 0 0#2) :
    WireInv s := by
  refine h.wireInv_of hblock ?_ ?_ ?_ ?_ ?_ ?_ <;> rw [hq]
  · rw [h.low]
    exact pinLevels_firstBit _
  all_goals simp [stageAt, SeqPos.latched]

/-- At the display of a frequency the frame of the captured one is committed, so taking it as the snapshot leaves the
wire at rest. -/
theorem WireInv.showFreq {a : State} (h : WireInv a) (hq : a.seq = .phase 10#4) :
    WireAtRest { a.emit (.freq a.holdF) with snapF := a.holdF, snapFValid := true } := by
  have hframe : a.txbuf = frameOfFreq a.holdF := h.frameHeld (by simp [State.sending, State.phase, hq])
  obtain ⟨-, hp, hr, hc⟩ := (wireInv_iff a).mp h
  rw [hq] at hp hr hc
  exact ⟨(pinLevels_idle _ _ (by decide)).mp hp, hr.notBad, hr.stage, hr.count,
    hc.activeValid.trans (Bool.or_true _), fun _ => (hc.committed rfl).trans hframe⟩

/-- Nothing said of the wire at rest is said of `SEQ`, the shared registers or the histories. -/
theorem WireAtRest.congr {a b : State} (h : WireAtRest a) (hpins : b.pins = a.pins) (hrx : b.rx = a.rx)
    (hvalid : b.snapFValid = a.snapFValid) (hsnap : b.snapF = a.snapF) : WireAtRest b := by
  obtain ⟨h1, h2, h3, h4, h5, h6⟩ := h
  exact ⟨hpins.trans h1, by rw [hrx, h2], by rw [hrx, h3], by rw [hrx, h4], by rw [hrx, hvalid, h5],
    by rw [hrx, hvalid, hsnap]; exact h6⟩

theorem WireInv.seqStep {a b : State} (ha : WireInv a) (h : SeqStep a b) : WireInv b := by
  have hblock : BlockInv b := ha.toBlockInv.seqStep h
  cases h with
  | write h => exact ha.write h
  | sameFreq hq hsame =>
    have hrest := (ha.atRest hq (by decide)).congr (b := a.goto (.phase 11#4)) rfl rfl rfl rfl
    exact hrest.wireInv hblock rfl (.inr ⟨(a.freqUnchanged_iff.mp hsame).1, .inl rfl⟩)
  | newFreq hq =>
    have hrest := (ha.atRest hq (by decide)).congr (b := a.captureFreq) rfl rfl rfl rfl
    exact hrest.wireInv_firstBit hblock rfl
  | showFreq hq =>
    refine WireAtRest.wireInv ?_ hblock rfl (.inr ⟨rfl, .inl rfl⟩)
    exact (ha.showFreq hq).congr rfl rfl rfl rfl
  | sameInc hq =>
    have hrest := (ha.atRest hq (by decide)).congr (b := a.goto (.phase 6#4)) rfl rfl rfl rfl
    exact hrest.wireInv hblock rfl (.inl rfl)
  | newInc hq =>
    have hrest := (ha.atRest hq (by decide)).congr (b := a.captureInc) rfl rfl rfl rfl
    exact hrest.wireInv hblock rfl (.inr ⟨ha.observed (by simp [State.phase, hq]), .inr rfl⟩)
  | showInc hq =>
    refine WireAtRest.wireInv ?_ hblock rfl (.inl rfl)
    exact (ha.atRest hq (by decide)).congr rfl rfl rfl rfl

/-- Settles O56: a pin write takes each part of the invariant on, the polls and the displays leave the wire alone. -/
theorem stepKeepsWireInvariant : Obligations.StepKeepsWireInvariant :=
  fun _ _ hs h => step_preserves (fun _ _ ha hab => ha.seqStep hab) (fun _ _ ha hab => ha.aside hab)
    WireInv.resetBlock hs h

/-! ### the word the chip acts on -/

/-- A committed frame has a zero control byte (R86, R156). -/
theorem WireInv.active_ctrl {s : State} (h : WireInv s) (hv : s.rx.activeValid = true) :
    frameCtrl s.rx.active = Config.ctrlByte := by
  obtain ⟨hblock, -, -, hc⟩ := (wireInv_iff s).mp h
  cases hq : s.seq.latched with
  | true => rw [hc.committed hq, hblock.ctrlZero]
  | false =>
    have hsnap : s.snapFValid = true := by
      rw [hc.activeValid, hq, Bool.or_false] at hv
      exact hv
    rw [hc.shown hsnap hq]
    exact frameCtrl_frameOf _

/-- With a frame committed the chip acts on its word; the unstated value is never reached. -/
theorem WireInv.chipWord_eq {s : State} (h : WireInv s) (hv : s.rx.activeValid = true) :
    s.chipWord = frameWord s.rx.active :=
  if_pos ⟨h.notBad, hv, h.active_ctrl hv⟩

/-- The word of a legal frequency's frame is the floor of R111. -/
theorem frameWord_frameOfFreq_toNat {f : FreqWord} (hf : LegalFrequency (sext32 f)) :
    (frameWord (frameOfFreq f)).toNat = f.toInt.toNat * 2 ^ 32 / 125000000 := by
  rw [frameOfFreq, frameWord_frameOf, ← encodeWord_of_legal 0#32 hf]
  exact encodeWord_toNat_of_legal 0#32 hf

/-- Settles O59: after the latch the committed frame is `TXBUF`, the frame of `HOLD_F`; later it is that of `SNAP_F`. -/
theorem chipActsOnTheObservedFrequency : Obligations.ChipActsOnTheObservedFrequency := by
  intro s h
  refine ⟨fun hphase => ?latched, fun hv h9 h10 => ?shown⟩
  case latched =>
    have hvalid : s.rx.activeValid = true := by rw [h.valid, decide_eq_true hphase, Bool.or_true]
    have hsending : s.sending := by simp only [State.sending]; omega
    rw [h.chipWord_eq hvalid, h.committed hphase, h.frameHeld hsending]
    exact frameWord_frameOfFreq_toNat h.holdLegal
  case shown =>
    have hvalid : s.rx.activeValid = true := by rw [h.valid, hv, Bool.true_or]
    rw [h.chipWord_eq hvalid, h.shown hv h9 h10]
    exact frameWord_frameOfFreq_toNat (h.snapLegal hv)

/-- A sequencer step away from phase 8 leaves the committed frame and its flag. -/
theorem WireInv.seqStep_active {a b : State} (ha : WireInv a) (h : SeqStep a b) (h8 : a.seq.ph ≠ 8#4) :
    b.rx.active = a.rx.active ∧ b.rx.activeValid = a.rx.activeValid := by
  obtain ⟨-, hp, hr, hc⟩ := (wireInv_iff a).mp ha
  cases h with
  | write h => exact hc.onWrite_active h hp hr h8 _ _
  | _ => exact ⟨rfl, rfl⟩

/-- The sequencer step in phase 8 commits the frame in `TXBUF`. -/
theorem WireInv.seqStep_latch {a b : State} (ha : WireInv a) (h : SeqStep a b) (h8 : a.seq.ph = 8#4) :
    b.rx.active = a.txbuf ∧ b.rx.activeValid = true := by
  obtain ⟨-, hp, hr, -⟩ := (wireInv_iff a).mp ha
  cases h with
  | write h =>
    obtain ⟨hq, rfl, -⟩ := h.of_phase_eight h8
    rw [hq] at hp hr
    exact hr.onWrite_latch hp _ _
  | sameFreq hq | newFreq hq | showFreq hq | sameInc hq | newInc hq | showInc hq => rw [hq] at h8; cases h8

/-- Settles O60: only the latch pulse's rise, the turn in phase 8, commits a frame. -/
theorem chipChangesAtTheLatchOnly : Obligations.ChipChangesAtTheLatchOnly := by
  intro s t h hstep hrst
  have hpop : WireInv s.pop := h.aside (.pop s)
  refine ⟨fun hnot => ?keeps, fun hturn h8 => ?takes⟩
  case keeps =>
    have hsame : t.rx.active = s.rx.active ∧ t.rx.activeValid = s.rx.activeValid := by
      rcases step_cases hstep with ⟨l, hl, -⟩ | ⟨hturn, -, hseq⟩ | ⟨-, -, haside⟩
      · exact absurd hl (hrst l)
      · exact hpop.seqStep_active hseq fun h8 => hnot ⟨hturn, congrArg BitVec.toNat h8⟩
      · cases haside; exact ⟨rfl, rfl⟩
    obtain ⟨hactive, hvalid⟩ := hsame
    refine ⟨hvalid, fun hv => ⟨hactive, ?_⟩⟩
    rw [(stepKeepsWireInvariant s t h hstep).chipWord_eq (hvalid.trans hv), h.chipWord_eq hv, hactive]
  case takes =>
    rcases step_cases hstep with ⟨l, hl, -⟩ | ⟨-, -, hseq⟩ | ⟨hother, -⟩
    · exact absurd hl (hrst l)
    · exact (hpop.seqStep_latch hseq (BitVec.eq_of_toNat_eq h8)).symm
    · exact absurd hturn hother

end Sys2Proof.Machine
end

section
/-! PROOFS. The writes of a frame in order (R134, R137, R146): entry by entry in the wire image, in `PINLOG`, and in a
capture of the lines (R66, R68). -/

namespace Sys2Proof.Machine

/-! ### the wire image by its entries -/

theorem length_bitImages (bits : List Bool) : (bits.flatMap bitImage).length = 3 * bits.length := by
  induction bits with
  | nil => rfl
  | cons b bits ih =>
    rw [List.flatMap_cons, List.length_append, ih, List.length_cons]
    simp only [bitImage, List.length_cons, List.length_nil]
    omega

/-- The writes of the bits before any others stand in threes (R137). -/
theorem getElem?_bitImages (rest : List PinWrite) {s : Nat} (hs : s < 3) :
    ∀ (bits : List Bool) {k : Nat} (hk : k < bits.length),
      (bits.flatMap bitImage ++ rest)[3 * k + s]? = (bitImage bits[k])[s]?
  | [], _, hk => absurd hk (Nat.not_lt_zero _)
  | b :: bits, 0, _ => by
    rw [List.flatMap_cons, List.append_assoc, Nat.mul_zero, Nat.zero_add,
      List.getElem?_append_left (show s < (bitImage b).length from hs), List.getElem_cons_zero]
  | b :: bits, k + 1, hk => by
    have hrec := getElem?_bitImages rest hs bits (Nat.lt_of_succ_lt_succ hk)
    rw [List.flatMap_cons, List.append_assoc, show 3 * (k + 1) + s = 3 + (3 * k + s) by ring]
    exact (List.getElem?_append_right (Nat.le_add_right 3 _)).trans
      (by rw [show (bitImage b).length = 3 from rfl, Nat.add_sub_cancel_left]; exact hrec)

theorem length_wireOrder (t : FrameWord) : (wireOrder t).length = 40 := by
  simp [wireOrder]

theorem length_wireImage (t : FrameWord) : (wireImage t).length = 122 := by
  rw [wireImage, List.length_append, length_bitImages, length_wireOrder]
  rfl

/-- The three entries of bit `k` (R137). -/
theorem wireImage_bit (t : FrameWord) {k s : Nat} (hk : k < 40) (hs : s < 3) :
    (wireImage t)[3 * k + s]? = (bitImage (t.getLsbD k))[s]? := by
  rw [wireImage, getElem?_bitImages _ hs _ (by rw [length_wireOrder]; exact hk)]
  simp [wireOrder]

/-- The two entries of the latch pulse (R135 to R137). -/
theorem wireImage_latch (t : FrameWord) :
    (wireImage t)[120]? = some ⟨.ddsFqud, true⟩ ∧ (wireImage t)[121]? = some ⟨.ddsFqud, false⟩ := by
  have hlen : ((wireOrder t).flatMap bitImage).length = 120 := by rw [length_bitImages, length_wireOrder]
  constructor <;> rw [wireImage, List.getElem?_append_right (by omega), hlen] <;> rfl

theorem writesDone_txBit {k : Nat} (hk : k < 40) (s : BitVec 2) : writesDone (.txBit k s) = 3 * k + s.toNat := by
  simp [writesDone, SeqPos.txBit_k hk]

/-- Within a transmission a pin write is the next entry of the wire image (R137). -/
theorem PinStep.entry_of_sending {f : FrameWord} {p q : SeqPos} {w : PinWrite} (h : PinStep f p w q) (hp : p.sending) :
    writesDone q = writesDone p + 1 ∧ (wireImage f)[writesDone p]? = some w := by
  cases h with
  | data k =>
    rw [writesDone_txBit k.isLt, writesDone_txBit k.isLt]
    exact ⟨rfl, wireImage_bit f k.isLt (s := 0) (by omega)⟩
  | clockRise k =>
    rw [writesDone_txBit k.isLt, writesDone_txBit k.isLt]
    exact ⟨rfl, wireImage_bit f k.isLt (s := 1) (by omega)⟩
  | clockFall k hk =>
    rw [writesDone_txBit k.isLt, writesDone_txBit (by omega)]
    exact ⟨rfl, wireImage_bit f k.isLt (s := 2) (by omega)⟩
  | lastClockFall => exact ⟨rfl, wireImage_bit f (k := 39) (s := 2) (by omega) (by omega)⟩
  | latchRise => exact ⟨rfl, (wireImage_latch f).1⟩
  | latchFall => exact ⟨rfl, (wireImage_latch f).2⟩
  | initResetRise | initResetFall | initClockRise | initClockFall | initLatchRise | initLatchFall =>
    exact absurd hp.1 (by decide)

/-- A list's first `n + 1` entries are its first `n` and the one at place `n`. -/
theorem take_succ_of_getElem? {α : Type} {l : List α} {n : Nat} {x : α} (h : l[n]? = some x) :
    l.take (n + 1) = l.take n ++ [x] := by
  rw [List.take_add_one, h, Option.toList_some]

/-- In the start-up sequence a pin write is the entry its phase counts (R146). -/
theorem PinStep.entry_of_startUp {f : FrameWord} {p q : SeqPos} {w : PinWrite} (h : PinStep f p w q)
    (hp : p.ph.toNat < 6) :
    q.ph.toNat = p.ph.toNat + 1 ∧ writesDone q = 0 ∧ bootImage[p.ph.toNat]? = some w ∧ w.pin ≠ .ddsData := by
  cases h with
  | initResetRise | initResetFall | initClockRise | initClockFall | initLatchRise | initLatchFall => decide
  | data | clockRise | clockFall | lastClockFall | latchRise | latchFall => exact absurd hp (by simp)

/-! ### the history of the wire -/

/-- Up to the end of the start-up sequence, with nothing shown, the history is its first entries. -/
theorem wireHistory_boot {s : State} (hphase : s.phase ≤ 6) (hshown : s.displog = []) (hdone : writesDone s.seq = 0) :
    wireHistory s = bootImage.take s.phase := by
  rcases Nat.lt_or_eq_of_le hphase with h | h
  · exact if_pos h
  · rw [wireHistory, if_neg (by omega), hshown, hdone, h]
    rfl

theorem wireHistory_past {s : State} (hphase : 6 ≤ s.phase) :
    wireHistory s = bootImage ++ (shownFrequencies s.displog).flatMap (fun f => wireImage (frameOfFreq f))
      ++ (wireImage s.txbuf).take (writesDone s.seq) :=
  if_neg (by omega)

theorem shownFrequencies_append (es ds : List DispEvent) :
    shownFrequencies (es ++ ds) = shownFrequencies es ++ shownFrequencies ds := by
  induction es with
  | nil => rfl
  | cons e es ih => cases e <;> simp [shownFrequencies, ih]

theorem HistoryInv.reset : HistoryInv State.reset := ⟨BlockInv.reset, rfl, fun _ => rfl⟩

theorem HistoryInv.resetBlock (s : State) (l : InputPins) : HistoryInv (s.resetBlock l) :=
  ⟨.resetBlock s l, rfl, fun _ => rfl⟩

theorem HistoryInv.aside {a b : State} (ha : HistoryInv a) (h : Aside a b) : HistoryInv b := by
  refine ⟨ha.toBlockInv.aside h, ?_, ?_⟩ <;> cases h
  · exact ha.wire
  · exact ha.unshown

/-- A pin write is the next entry of the start-up sequence or of the current frame. -/
theorem HistoryInv.write {a : State} (ha : HistoryInv a) {w : PinWrite} {q : SeqPos} (h : PinStep a.txbuf a.seq w q) :
    HistoryInv ((a.writePin w.pin w.level).goto q) := by
  by_cases hearly : a.seq.ph.toNat < 6
  · obtain ⟨hq, hdone, hentry, -⟩ := h.entry_of_startUp hearly
    have hshown := ha.unshown hearly
    refine ⟨ha.toBlockInv.seqStep (.write h), ?_, fun _ => hshown⟩
    have hafter : wireHistory ((a.writePin w.pin w.level).goto q) = bootImage.take q.ph.toNat :=
      wireHistory_boot (show q.ph.toNat ≤ 6 by omega) hshown hdone
    have hbefore : a.pinlog = bootImage.take a.seq.ph.toNat := ha.wire.trans (if_pos hearly)
    rw [hafter, hq, take_succ_of_getElem? hentry, ← hbefore]
    rfl
  · obtain ⟨hp, hq, -⟩ := h.phase_cases.resolve_left fun h => hearly (by omega)
    obtain ⟨hdone, hentry⟩ := h.entry_of_sending hp
    refine ⟨ha.toBlockInv.seqStep (.write h), ?_, fun h => absurd (Nat.le_trans hq.1 (Nat.le_of_lt h)) (by decide)⟩
    have hafter := wireHistory_past (s := (a.writePin w.pin w.level).goto q) (Nat.le_of_succ_le hq.1)
    have hbefore := ha.wire.trans (wireHistory_past (Nat.le_of_succ_le hp.1))
    rw [hafter, State.goto_pinlog, State.writePin_pinlog, hbefore, State.goto_seq, hdone, State.goto_txbuf,
      State.writePin_txbuf, take_succ_of_getElem? hentry, ← List.append_assoc]
    rfl

/-- Past the start-up sequence and between transmissions the history is the start-up sequence and a whole frame for each
frequency shown. -/
theorem wireHistory_idle {s : State} (hphase : 6 ≤ s.phase) (hdone : writesDone s.seq = 0) :
    wireHistory s = bootImage ++ (shownFrequencies s.displog).flatMap (fun f => wireImage (frameOfFreq f)) := by
  rw [wireHistory_past hphase, hdone, List.take_zero, List.append_nil]

/-- A step between two idle positions that writes no pin and shows no frequency keeps the history. -/
theorem HistoryInv.idle {a b : State} (ha : HistoryInv a) (hblock : BlockInv b) (hpa : 6 ≤ a.phase) (hpb : 6 ≤ b.phase)
    (hda : writesDone a.seq = 0) (hdb : writesDone b.seq = 0) (hlog : b.pinlog = a.pinlog)
    (hshown : shownFrequencies b.displog = shownFrequencies a.displog) : HistoryInv b := by
  refine ⟨hblock, ?_, fun h => absurd h (by omega)⟩
  rw [hlog, ha.wire, wireHistory_idle hpa hda, wireHistory_idle hpb hdb, hshown]

theorem HistoryInv.seqStep {a b : State} (ha : HistoryInv a) (h : SeqStep a b) : HistoryInv b := by
  have hblock : BlockInv b := ha.toBlockInv.seqStep h
  cases h with
  | write h => exact ha.write h
  | sameFreq hq | newFreq hq | sameInc hq | newInc hq =>
    exact ha.idle hblock (by simp [State.phase, hq]) (by simp [State.phase]) (by rw [hq]; rfl) rfl rfl rfl
  | showInc hq =>
    refine ha.idle hblock (by simp [State.phase, hq]) (by simp [State.phase]) (by rw [hq]; rfl) rfl rfl ?_
    simp [shownFrequencies_append, shownFrequencies]
  | showFreq hq =>
    have hframe : a.txbuf = frameOfFreq a.holdF := ha.frameHeld (by simp [State.sending, State.phase, hq])
    have hdone : (wireImage a.txbuf).take (writesDone a.seq) = wireImage (frameOfFreq a.holdF) := by
      rw [hq, hframe]
      exact List.take_of_length_le (length_wireImage _).le
    refine ⟨hblock, ?_, fun h => absurd h (by simp [State.phase])⟩
    rw [wireHistory_idle (by simp [State.phase]) rfl]
    simp [ha.wire, wireHistory_past (s := a) (by simp [State.phase, hq]), hdone, shownFrequencies_append,
      shownFrequencies]

/-- Settles O57: each pin write is the next entry due, and showing a frequency closes its frame. -/
theorem stepKeepsWireHistory : Obligations.StepKeepsWireHistory :=
  fun _ _ hs h => step_preserves (fun _ _ ha hab => ha.seqStep hab) (fun _ _ ha hab => ha.aside hab)
    HistoryInv.resetBlock hs h

/-- Settles O54. -/
theorem invariantsHoldAtReset : Obligations.InvariantsHoldAtReset :=
  ⟨WireInv.reset, HistoryInv.reset, rfl, rfl⟩

/-! ### a capture of one frame -/

/-- Each bit written with its clock pulse is captured once, and the latch pulse adds nothing (R66). -/
theorem capture_bitImages (bits : List Bool) : ∀ p : Pins, p.ddsWclk = false →
    capture p (bits.flatMap bitImage ++ [⟨.ddsFqud, true⟩, ⟨.ddsFqud, false⟩]) = bits := by
  induction bits with
  | nil => exact fun p _ => by simp [capture]
  | cons b bits ih =>
    intro p hp
    have hrest := ih ((((p.set .ddsData b).set .ddsWclk true)).set .ddsWclk false) rfl
    simpa [bitImage, capture, Pins.set, hp] using hrest

theorem capture_wireImage (p : Pins) (t : FrameWord) (hp : p.ddsWclk = false) : capture p (wireImage t) = wireOrder t :=
  capture_bitImages (wireOrder t) p hp

/-- Reading a reversed string, its first bit is the least significant. -/
theorem binaryNumber_reverse_cons (b : Bool) (bits : List Bool) :
    binaryNumber (b :: bits).reverse = 2 * binaryNumber bits.reverse + b.toNat := by
  simp [binaryNumber]

/-- The reversed string of `n` bits of a number from bit `i` up is that part of the number. -/
theorem binaryNumber_bits (x n : Nat) : ∀ i,
    binaryNumber ((List.range' i n).map x.testBit).reverse = x / 2 ^ i % 2 ^ n := by
  induction n with
  | zero => exact fun i => (Nat.mod_one _).symm
  | succ n ih =>
    intro i
    have hbit : (x.testBit i).toNat = x / 2 ^ i % 2 := (Nat.toNat_testBit x i)
    have hrest : x / 2 ^ (i + 1) = x / 2 ^ i / 2 := by rw [Nat.pow_succ, Nat.div_div_eq_div_mul]
    rw [List.range'_succ, List.map_cons, binaryNumber_reverse_cons, ih (i + 1), hbit, hrest, Nat.pow_succ',
      Nat.mod_mul]
    omega

/-- Eight bits in wire order from bit `i` up, read as R68 reads a byte. -/
theorem binaryNumber_wireByte (t : FrameWord) {i : Nat} (hi : i + 8 ≤ 40) :
    binaryNumber (((wireOrder t).drop i).take 8).reverse = t.toNat / 2 ^ i % 2 ^ 8 := by
  have hbits : ((List.range Config.frameBits).drop i).take 8 = List.range' i 8 := by
    apply List.ext_getElem <;> simp [Config.frameBits]
    omega
  rw [wireOrder, ← List.map_drop, ← List.map_take, hbits]
  exact binaryNumber_bits t.toNat 8 i

/-- Settles O43: the capture is the frame in wire order, whose first four bytes are the word's. -/
theorem capturedFrameReassembles : Obligations.CapturedFrameReassembles := by
  intro p w hp
  rw [capture_wireImage p _ hp]
  refine ⟨length_wireOrder _, fun k hk => by simp [wireOrder, hk], ?reassembled⟩
  case reassembled =>
    have hlt := w.isLt
    have hfirst := binaryNumber_wireByte (frameOf w) (i := 0) (by omega)
    rw [List.drop_zero] at hfirst
    rw [reassemble, hfirst, binaryNumber_wireByte _ (by omega), binaryNumber_wireByte _ (by omega),
      binaryNumber_wireByte _ (by omega), frameOf_toNat]
    omega

end Sys2Proof.Machine
end

section
/-! PROOFS. Runs of steps (R139, R146, R198, R256): the sequencer's operations with other moves between them and alone,
counted; a transmission, the start-up sequence and the passes of the Controller loop. -/

namespace Sys2Proof.Machine

/-! ### runs -/

theorem stepN_succ (n : Nat) (s : State) : stepN (n + 1) s = andThen (step s) (stepN n) := rfl

@[simp] theorem stepN_one (s : State) : stepN 1 s = step s := by
  rw [stepN_succ]
  cases step s <;> rfl

/-- A run continued from where it ended. -/
theorem stepN_add {m : Nat} {s t : State} (n : Nat) (h : stepN m s = .next t) : stepN (m + n) s = stepN n t := by
  induction m generalizing s with
  | zero => cases h; rw [Nat.zero_add]
  | succ m ih =>
    obtain ⟨u, hu, ht⟩ := andThen_eq_next h
    rw [Nat.succ_add, stepN_succ, hu, andThen_next, ih ht]

/-- With no move to come, a step is the sequencer's. -/
theorem step_alone {s : State} (hl : s.seq.legal = true) (hs : s.stim = []) :
    ∃ t, step s = .next t ∧ SeqStep s t ∧ t.stim = [] := by
  obtain ⟨t, ht, hseq⟩ := step_turn hl (State.nextMove_nil hs)
  rw [State.pop_nil hs] at hseq
  exact ⟨t, ht, hseq, by rw [step_stim ht, hs, List.tail_nil]⟩

section
variable {P : Nat → State → Prop} {N : Nat} (legal : ∀ n a, P n a → a.seq.legal = true)
  (turn : ∀ n a b, n < N → P n a → SeqStep a b → P (n + 1) b)
include legal turn

/-- A property counted up by the sequencer's steps is reached by that many steps where no other move is to come. -/
theorem stepN_alone : ∀ (k n : Nat) (s : State), n + k ≤ N → s.stim = [] → P n s →
    ∃ t, stepN k s = .next t ∧ t.stim = [] ∧ P (n + k) t
  | 0, _, s, _, hs, hP => ⟨s, rfl, hs, hP⟩
  | k + 1, n, s, hk, hs, hP => by
    obtain ⟨u, hu, hseq, hstim⟩ := step_alone (legal n s hP) hs
    obtain ⟨t, ht, hrest, hPt⟩ := stepN_alone k (n + 1) u (by omega) hstim (turn n s u (by omega) hP hseq)
    refine ⟨t, by rw [stepN_succ, hu, andThen_next, ht], hrest, ?_⟩
    rwa [show n + (k + 1) = n + 1 + k by omega]

/-- A property counted up by the sequencer's steps and kept by the moves beside it is reached by as many turns, whatever
interleaves with them (R139). -/
theorem stepN_interleaved (aside : ∀ n a b, P n a → Aside a b → P n b) (rest : List Move) :
    ∀ (ms : List Move) (n : Nat) (s : State), (∀ m ∈ ms, m.interleaves = true) → n + ms.count .turn ≤ N →
      s.stim = ms ++ rest → P n s → ∃ t, stepN ms.length s = .next t ∧ t.stim = rest ∧ P (n + ms.count .turn) t
  | [], _, s, _, _, hs, hP => ⟨s, rfl, hs, hP⟩
  | m :: ms, n, s, hms, hk, hs, hP => by
    obtain ⟨hm, hms⟩ := List.forall_mem_cons.mp hms
    have hmove : s.nextMove = m := State.nextMove_cons hs
    obtain ⟨u, hu, hkind⟩ := step_interleaves (legal n s hP) (hmove.symm ▸ hm)
    have hstim : u.stim = ms ++ rest := by rw [step_stim hu, hs, List.cons_append, List.tail_cons]
    have hpop : P n s.pop := aside n s s.pop hP (.pop s)
    rw [List.count_cons] at hk
    have hPu : P (n + if m = .turn then 1 else 0) u := by
      rcases hkind with ⟨hturn, hseq⟩ | ⟨hother, haside⟩
      · rw [← hmove, if_pos hturn]
        exact turn n s.pop u (by simp [← hmove, hturn] at hk; omega) hpop hseq
      · rw [← hmove, if_neg hother]
        exact aside n s.pop u hpop haside
    obtain ⟨t, ht, hrest, hPt⟩ :=
      stepN_interleaved aside rest ms _ u hms (by simp only [beq_iff_eq] at hk; omega) hstim hPu
    refine ⟨t, by rw [List.length_cons, stepN_succ, hu, andThen_next, ht], hrest, ?_⟩
    simp only [List.count_cons, beq_iff_eq]
    rwa [show n + (ms.count .turn + if m = .turn then 1 else 0) =
      (n + if m = .turn then 1 else 0) + ms.count .turn by omega]

end

/-! ### a transmission -/

/-- Before the last write of a transmission the sequencer's step is a pin write. -/
theorem SeqStep.of_sending {a b : State} (h : SeqStep a b) (hs : a.seq.sending) (hw : writesDone a.seq < 122) :
    ∃ w q, PinStep a.txbuf a.seq w q ∧ q.sending ∧ b = (a.writePin w.pin w.level).goto q := by
  cases h with
  | @write w q h =>
    rcases h.phase_cases with ⟨hp, -⟩ | ⟨-, hq, -⟩
    · exact absurd hs.1 (by omega)
    · exact ⟨w, q, h, hq, rfl⟩
  | sameFreq hq | newFreq hq => exact absurd hs.1 (by simp [hq])
  | showFreq hq => exact absurd hw (by rw [hq]; decide)
  | sameInc hq | newInc hq | showInc hq => exact absurd hs.2 (by simp [hq])

/-- Outside phase 7 a legal position is its phase. -/
theorem SeqPos.eq_phase {q : SeqPos} (hl : q.legal = true) (h7 : q.ph ≠ 7#4) : q = .phase q.ph := by
  rcases q.legal_iff.mp hl with ⟨hph, -⟩ | ⟨-, -, hk, hst⟩
  · exact absurd hph h7
  · rw [SeqPos.phase, ← hk, ← hst]

/-- Outside phase 7 all 122 writes are made at the display only. -/
theorem phase_eq_of_writesDone {ph : BitVec 4} (h : writesDone (.phase ph) = 122) : ph = 10#4 := by
  revert ph
  decide

/-- With all 122 writes made, the sequencer is at the display. -/
theorem SeqPos.eq_display {q : SeqPos} (hl : q.legal = true) (hw : writesDone q = 122) : q = .phase 10#4 := by
  by_cases h7 : q.ph = 7#4
  · rcases q.legal_iff.mp hl with ⟨-, hk, hs⟩ | ⟨hne, -⟩
    · rw [writesDone, if_pos h7] at hw
      omega
    · exact absurd h7 hne
  · have hq := SeqPos.eq_phase hl h7
    have hph : q.ph = 10#4 := phase_eq_of_writesDone ((congrArg writesDone hq).symm.trans hw)
    rw [hq, hph]

/-- The state `a` is `n` writes into the transmission that `s` is at the start of, whatever came between (R139). -/
structure Transmitted (s : State) (n : Nat) (a : State) : Prop where
  legal : a.seq.legal = true
  sending : a.seq.sending
  done : writesDone a.seq = n
  txbuf : a.txbuf = s.txbuf
  log : a.pinlog = s.pinlog ++ (wireImage s.txbuf).take n
  shown : a.displog = s.displog

theorem Transmitted.seqStep {s a b : State} {n : Nat} (hn : n < 122) (ha : Transmitted s n a) (h : SeqStep a b) :
    Transmitted s (n + 1) b := by
  obtain ⟨w, q, hw, hq, rfl⟩ := h.of_sending ha.sending (ha.done ▸ hn)
  obtain ⟨hdone, hentry⟩ := hw.entry_of_sending ha.sending
  rw [ha.done, ha.txbuf] at hentry
  refine ⟨hw.legal, hq, hdone.trans (congrArg (· + 1) ha.done), ha.txbuf, ?_, ha.shown⟩
  rw [State.goto_pinlog, State.writePin_pinlog, ha.log, take_succ_of_getElem? hentry, List.append_assoc]

theorem Transmitted.aside {s a b : State} {n : Nat} (ha : Transmitted s n a) (h : Aside a b) : Transmitted s n b := by
  obtain ⟨hl, hs, hd, ht, hlog, hshown⟩ := ha
  cases h
  exact ⟨hl, hs, hd, ht, hlog, hshown⟩

/-- Settles O44: 122 turns make the 122 writes, and the moves between them touch none of what is sent. -/
theorem transmissionIgnoresEvents : Obligations.TransmissionIgnoresEvents := by
  intro s ms rest hq hstim hms hcount
  have hstart : Transmitted s 0 s :=
    ⟨by rw [hq]; rfl, by rw [hq]; exact ⟨by decide, by decide⟩, by rw [hq]; rfl, rfl, (List.append_nil _).symm, rfl⟩
  obtain ⟨t, ht, hrest, hend⟩ := stepN_interleaved (P := Transmitted s) (N := 122) (fun _ _ h => h.legal)
    (fun _ _ _ hn ha h => ha.seqStep hn h) (fun _ _ _ ha h => ha.aside h) rest ms 0 s hms (by omega) hstim hstart
  rw [hcount] at hend
  refine ⟨t, ht, hrest, SeqPos.eq_display hend.legal hend.done, hend.txbuf, ?_, hend.shown⟩
  rw [hend.log, List.take_of_length_le (by rw [length_wireImage])]

/-! ### the start-up sequence -/

/-- The state `a` is `n` operations into the start-up sequence that `s` is at the start of, whatever came between. -/
structure StartedUp (s : State) (n : Nat) (a : State) : Prop where
  legal : a.seq.legal = true
  phase : a.seq.ph.toNat = n
  log : a.pinlog = s.pinlog ++ bootImage.take n
  data : a.pins.ddsData = s.pins.ddsData

theorem StartedUp.seqStep {s a b : State} {n : Nat} (hn : n < 6) (ha : StartedUp s n a) (h : SeqStep a b) :
    StartedUp s (n + 1) b := by
  have hphase := ha.phase
  cases h with
  | write h =>
    obtain ⟨hq, -, hentry, hpin⟩ := h.entry_of_startUp (hphase ▸ hn)
    rw [hphase] at hentry
    refine ⟨h.legal, hq.trans (congrArg (· + 1) hphase), ?_, (Pins.get_set_other a.pins _ hpin.symm).trans ha.data⟩
    rw [State.goto_pinlog, State.writePin_pinlog, ha.log, take_succ_of_getElem? hentry, List.append_assoc]
  | sameFreq hq | newFreq hq | showFreq hq | sameInc hq | newInc hq | showInc hq =>
    rw [hq] at hphase
    exact absurd hn (by rw [← hphase]; simp)

theorem StartedUp.aside {s a b : State} {n : Nat} (ha : StartedUp s n a) (h : Aside a b) : StartedUp s n b := by
  obtain ⟨hl, hp, hlog, hdata⟩ := ha
  cases h
  exact ⟨hl, hp, hlog, hdata⟩

theorem SeqPos.eq_pollF {q : SeqPos} (hl : q.legal = true) (h6 : q.ph.toNat = 6) : q = .phase 6#4 := by
  have hph : q.ph = 6#4 := BitVec.eq_of_toNat_eq h6
  rw [SeqPos.eq_phase hl (by simp [hph]), hph]

/-- Settles O45: six turns make the six writes, and the moves between them write no pin. -/
theorem startUpSequenceComesFirst : Obligations.StartUpSequenceComesFirst := by
  intro s ms rest hq hstim hms hcount
  have hstart : StartedUp s 0 s := ⟨by rw [hq]; rfl, by rw [hq]; rfl, (List.append_nil _).symm, rfl⟩
  obtain ⟨t, ht, hrest, hend⟩ := stepN_interleaved (P := StartedUp s) (N := 6) (fun _ _ h => h.legal)
    (fun _ _ _ hn ha h => ha.seqStep hn h) (fun _ _ _ ha h => ha.aside h) rest ms 0 s hms (by omega) hstim hstart
  rw [hcount] at hend
  exact ⟨t, ht, hrest, SeqPos.eq_pollF hend.legal hend.phase, hend.log, hend.data⟩

/-! ### the way back to `POLL_F` -/

/-- How many operations the sequencer has at most before it is at `POLL_F` (R198). -/
def SeqPos.toPollF (q : SeqPos) : Nat :=
  if q.ph.toNat ≤ 6 then 6 - q.ph.toNat
  else if q.ph.toNat ≤ 10 then 125 - writesDone q
  else 13 - q.ph.toNat

theorem PinStep.toPollF_lt {f : FrameWord} {p q : SeqPos} {w : PinWrite} (h : PinStep f p w q) :
    q.toPollF < p.toPollF := by
  by_cases hp : p.ph.toNat < 6
  · obtain ⟨hq, -⟩ := h.entry_of_startUp hp
    rw [SeqPos.toPollF, SeqPos.toPollF, if_pos (by omega), if_pos (by omega)]
    omega
  · obtain ⟨⟨hp7, hp10⟩, ⟨hq7, hq10⟩, -⟩ := h.phase_cases.resolve_left fun h => hp (by omega)
    obtain ⟨hdone, hentry⟩ := h.entry_of_sending ⟨hp7, hp10⟩
    have hlt : writesDone p < 122 := length_wireImage f ▸ (List.getElem?_eq_some_iff.mp hentry).1
    rw [SeqPos.toPollF, SeqPos.toPollF, if_neg (by omega), if_pos hq10, if_neg (by omega), if_pos hp10, hdone]
    omega

/-- Away from `POLL_F` each operation brings the sequencer nearer to it. -/
theorem SeqStep.toPollF_lt {a b : State} (h : SeqStep a b) (hne : a.seq ≠ .phase 6#4) :
    b.seq.toPollF < a.seq.toPollF := by
  cases h with
  | write h => exact h.toPollF_lt
  | sameFreq hq | newFreq hq => exact absurd hq hne
  | showFreq hq | sameInc hq | newInc hq | showInc hq =>
    rw [hq]
    simp [SeqPos.toPollF, writesDone]

/-- From `POLL_F` the way back is at most 125 operations after the first (R198). -/
theorem SeqStep.toPollF_le {a b : State} (h : SeqStep a b) (hpoll : a.seq = .phase 6#4) : b.seq.toPollF ≤ 125 := by
  cases h with
  | write h =>
    have := h.toPollF_lt
    rw [hpoll] at this
    exact absurd this (Nat.not_lt_zero _)
  | sameFreq | newFreq => simp [SeqPos.toPollF]
  | showFreq hq | sameInc hq | newInc hq | showInc hq => rw [hpoll] at hq; cases hq

/-- The sequencer alone comes to `POLL_F` in as many operations as its position has at most before it. -/
theorem exists_stepN_pollF : ∀ (k : Nat) (s : State), s.seq.legal = true → s.stim = [] → s.seq.toPollF ≤ k →
    ∃ n t, n ≤ k ∧ stepN n s = .next t ∧ t.seq = .phase 6#4
  | k, s, hl, hs, hk => by
    by_cases hpoll : s.seq = .phase 6#4
    · exact ⟨0, s, Nat.zero_le k, rfl, hpoll⟩
    · obtain ⟨u, hu, hseq, hstim⟩ := step_alone hl hs
      have hlt := hseq.toPollF_lt hpoll
      match k with
      | 0 => omega
      | k + 1 =>
        obtain ⟨n, t, hn, ht, hq⟩ := exists_stepN_pollF k u hseq.legal hstim (by omega)
        exact ⟨n + 1, t, by omega, by rw [stepN_succ, hu, andThen_next, ht], hq⟩

/-- No position is further from `POLL_F` than the start of a transmission. -/
theorem SeqPos.toPollF_le (q : SeqPos) : q.toPollF ≤ 125 := by
  unfold SeqPos.toPollF
  split
  · omega
  · split <;> omega

/-- Settles O13: one operation, and then at most 125 that bring the sequencer to `POLL_F`. -/
theorem pollFReturnsWithin126 : Obligations.PollFReturnsWithin126 := by
  intro s hl hs
  obtain ⟨u, hu, hseq, hstim⟩ := step_alone hl hs
  obtain ⟨n, t, hn, ht, hq⟩ := exists_stepN_pollF 125 u hseq.legal hstim u.seq.toPollF_le
  exact ⟨n + 1, t, by omega, by omega, by rw [stepN_succ, hu, andThen_next, ht], hq⟩

/-! ### the passes of the Controller loop -/

/-- With no move to come, a step runs the operation of the position. -/
theorem step_at {s : State} {i : Instr} (hs : s.stim = []) (hpos : encode i = .position s.seq.code) :
    step s = exec i s := by
  obtain ⟨hl, hd⟩ := SeqPos.legal_of_encode hpos
  rw [step_eq_runCode hl (State.fetch_nil hs), State.pop_nil hs, runCode_of_op s hd]

theorem State.goto_of_seq {s : State} {q : SeqPos} (h : s.seq = q) : s.goto q = s := by
  cases h; rfl

/-- The state after the step size was captured, shown and taken as the snapshot. -/
def State.showStep (s : State) : State :=
  { s with
    inc := s.captureInc.inc
    holdI := s.captureInc.inc
    snapI := s.captureInc.inc
    snapIValid := true
    displog := s.displog ++ [.step s.captureInc.inc] }

/-- From `POLL_I` with the step size unchanged, one operation leads back to `POLL_F`. -/
theorem stepN_pollI_same {s : State} (hs : s.stim = []) (hq : s.seq = .phase 11#4)
    (hsame : s.snapIValid = true ∧ s.snapI = s.inc) : stepN 1 s = .next (s.goto (.phase 6#4)) := by
  rw [stepN_one, step_at (i := .pollI) hs (by rw [hq]; rfl)]
  exact exec_pollI_of_unchanged (s.incUnchanged_iff.mpr ⟨hsame.1, by rw [hsame.2]⟩)

/-- From `POLL_I` with a new step size, two operations show it and lead back to `POLL_F`. -/
theorem stepN_pollI_new {s : State} (hs : s.stim = []) (hq : s.seq = .phase 11#4)
    (hnew : ¬ (s.snapIValid = true ∧ s.snapI = s.inc)) : stepN 2 s = .next (s.showStep.goto (.phase 6#4)) := by
  have hchanged : ¬ s.incUnchanged = true := fun h =>
    hnew ((s.incUnchanged_iff.mp h).imp id fun h => (BitVec.eq_of_toNat_eq h).symm)
  have hpoll : step s = .next s.captureInc :=
    (step_at (i := .pollI) hs (by rw [hq]; rfl)).trans (exec_pollI_of_changed hchanged)
  rw [stepN_succ, hpoll, andThen_next, stepN_one, step_at (i := .dispI) (s := s.captureInc) hs rfl]
  rfl

/-- From `POLL_F` with the frequency unchanged, one operation leads to `POLL_I`. -/
theorem step_pollF_same {s : State} (hs : s.stim = []) (hq : s.seq = .phase 6#4) (hvalid : s.snapFValid = true)
    (heq : s.snapF = s.freq) : stepN 1 s = .next (s.goto (.phase 11#4)) := by
  rw [stepN_one, step_at (i := .pollF) hs (by rw [hq]; rfl)]
  exact exec_pollF_of_unchanged (s.freqUnchanged_iff.mpr ⟨hvalid, by rw [heq]⟩)

/-- Settles O34: the two polls, and the display of the step size where it is new. -/
theorem passWithoutFrequencyChange : Obligations.PassWithoutFrequencyChange := by
  intro s hq hs hvalid heq
  have hpoll := step_pollF_same hs hq hvalid heq
  refine ⟨fun hv hi => ?same, fun hnew => ?new⟩
  case same =>
    rw [stepN_add 1 hpoll, stepN_pollI_same (s := s.goto (.phase 11#4)) hs rfl ⟨hv, hi⟩]
    exact congrArg _ (State.goto_of_seq hq)
  case new =>
    refine ⟨s.showStep, ?_, s.captureInc_inc_toNat, rfl⟩
    rw [stepN_add 2 hpoll, stepN_pollI_new (s := s.goto (.phase 11#4)) hs rfl hnew]
    exact congrArg _ (State.goto_of_seq (s := s.showStep) hq)

/-- Settles O36, by induction on the number of passes. -/
theorem quiescentStateStays : Obligations.QuiescentStateStays := by
  intro s n ⟨hq, hvalid, heq, hivalid, hieq⟩ hs
  have hpass : stepN 2 s = .next s := (passWithoutFrequencyChange s hq hs hvalid heq).1 hivalid hieq
  have heven : stepN (2 * n) s = .next s := by
    induction n with
    | zero => rfl
    | succ n ih => rw [Nat.mul_succ, stepN_add 2 ih, hpass]
  exact ⟨heven, (stepN_add 1 heven).trans (step_pollF_same hs hq hvalid heq)⟩

/-- The state `n` writes into the transmission that `s` is at the start of, with nothing between: it differs from `s` in
`SEQ` and on the wire only. -/
def State.partSent (s : State) (n : Nat) (pins : Pins) (rx : Receiver) (q : SeqPos) : State :=
  { s with pins := pins, rx := rx, seq := q, pinlog := s.pinlog ++ (wireImage s.txbuf).take n }

/-- The next entry of the wire image, written. -/
theorem State.partSent_writePin (s : State) {n : Nat} (pins : Pins) (rx : Receiver) (p q : SeqPos) {w : PinWrite}
    (hw : (wireImage s.txbuf)[n]? = some w) :
    ∃ pins' rx', ((s.partSent n pins rx p).writePin w.pin w.level).goto q = s.partSent (n + 1) pins' rx' q := by
  refine ⟨pins.set w.pin w.level, rx.onWrite s.runs (s.partSent n pins rx p).pinlog.length pins w, ?_⟩
  unfold State.partSent
  rw [take_succ_of_getElem? hw, ← List.append_assoc]
  rfl

/-- The state `a` is `n` writes into the transmission that `s` is at the start of, with nothing between. -/
def Transmitting (s : State) (n : Nat) (a : State) : Prop :=
  ∃ pins rx q, a = s.partSent n pins rx q ∧ q.legal = true ∧ q.sending ∧ writesDone q = n

theorem Transmitting.seqStep {s a b : State} {n : Nat} (hn : n < 122) (ha : Transmitting s n a) (h : SeqStep a b) :
    Transmitting s (n + 1) b := by
  obtain ⟨pins, rx, p, rfl, -, hp, rfl⟩ := ha
  obtain ⟨w, q, hw, hq, rfl⟩ := h.of_sending hp hn
  obtain ⟨hdone, hentry⟩ := hw.entry_of_sending hp
  obtain ⟨pins', rx', hwrite⟩ := s.partSent_writePin pins rx p q hentry
  exact ⟨pins', rx', q, hwrite, hw.legal, hq, hdone⟩

/-- The state after a whole transmission and its display: the frame is on the wire and the captured frequency shown and
taken as the snapshot; the pins and the receiver are what they have become. -/
def State.sent (s : State) (pins : Pins) (rx : Receiver) : State :=
  { s with
    pins := pins
    rx := rx
    pinlog := s.pinlog ++ wireImage s.txbuf
    displog := s.displog ++ [.freq s.holdF]
    snapF := s.holdF
    snapFValid := true
    seq := .phase 11#4 }

/-- The display after the last write. -/
theorem exec_dispF_partSent (s : State) (pins : Pins) (rx : Receiver) (q : SeqPos) :
    exec .dispF (s.partSent 122 pins rx q) = .next (s.sent pins rx) := by
  rw [State.partSent, List.take_of_length_le (length_wireImage _).le]
  rfl

/-- A transmission and its display take 123 operations. -/
theorem stepN_transmission {s : State} (hs : s.stim = []) (hq : s.seq = .txBit 0 0#2) :
    ∃ pins rx, stepN 123 s = .next (s.sent pins rx) := by
  have hstart : Transmitting s 0 s := by
    refine ⟨s.pins, s.rx, s.seq, ?_, by rw [hq]; rfl, by rw [hq]; exact ⟨by decide, by decide⟩, by rw [hq]; rfl⟩
    rw [State.partSent, List.take_zero, List.append_nil]
  obtain ⟨t, ht, -, pins, rx, q, rfl, hl, -, hdone⟩ := stepN_alone (P := Transmitting s) (N := 122)
    (by rintro _ _ ⟨_, _, _, rfl, h, -⟩; exact h) (fun _ _ _ hn ha h => ha.seqStep hn h) 122 0 s (by omega) hs hstart
  rw [Nat.zero_add] at ht hdone
  obtain rfl := SeqPos.eq_display hl hdone
  refine ⟨pins, rx, ?_⟩
  calc stepN 123 s
    _ = step (s.partSent 122 pins rx (.phase 10#4)) := (stepN_add 1 ht).trans (stepN_one _)
    _ = exec .dispF (s.partSent 122 pins rx (.phase 10#4)) := step_at hs rfl
    _ = .next (s.sent pins rx) := exec_dispF_partSent s pins rx _

/-- Settles O35: the poll captures the frequency, the transmission sends and shows it, and the rest of the pass is that
of an unchanged or a new step size. -/
theorem passWithFrequencyChange : Obligations.PassWithFrequencyChange := by
  intro s hq hs hchanged
  have hpoll : stepN 1 s = .next s.captureFreq := by
    rw [stepN_one, step_at (i := .pollF) hs (by rw [hq]; rfl)]
    refine exec_pollF_of_changed fun h => hchanged ?_
    exact (s.freqUnchanged_iff.mp h).imp id fun h => (BitVec.toInt_inj.mp h).symm
  obtain ⟨pins, rx, hsent⟩ := stepN_transmission (s := s.captureFreq) hs rfl
  have hfirst : stepN 124 s = .next (s.captureFreq.sent pins rx) := (stepN_add 123 hpoll).trans hsent
  have hfreq : s.captureFreq.freq.toInt = max 0 (min s.freq.toInt 32000000) :=
    s.captureFreq_freq_toInt.trans (clampFrequency_eq_max_min s.freq.toInt)
  by_cases hinc : s.snapIValid = true ∧ s.snapI = s.inc
  · rw [if_pos hinc, stepN_add 1 hfirst, stepN_pollI_same (s := s.captureFreq.sent pins rx) hs rfl hinc]
    exact ⟨_, s.captureFreq.txbuf, rfl, rfl, hfreq, rfl, rfl, s.captureFreq_txbuf_toNat, rfl, rfl, hinc.2, hinc.1,
      fun _ _ => ⟨rfl, rfl⟩, fun h => absurd hinc h, rfl, rfl, rfl⟩
  · rw [if_neg hinc, stepN_add 2 hfirst, stepN_pollI_new (s := s.captureFreq.sent pins rx) hs rfl hinc]
    exact ⟨_, s.captureFreq.txbuf, rfl, rfl, hfreq, rfl, rfl, s.captureFreq_txbuf_toNat, rfl, rfl, rfl, rfl,
      fun hv hi => absurd ⟨hv, hi⟩ hinc,
      fun _ => ⟨s.captureInc_inc_toNat, List.append_assoc _ _ _⟩, rfl, rfl, rfl⟩

end Sys2Proof.Machine
end

section
/-! PROOFS. Sequences of events (R166, R167, R169, R182): whole cycles of the encoder, bounces, presses, and the
agreement with the decoder over unbounded integers. -/

namespace Sys2Proof.Machine

/-! ### wrapped sums -/

/-- Wrapping in between does not matter to a wrapped sum (R13). -/
theorem wrap32_wrap32_add (v i : Int) : wrap32 (sext32 (wrap32 v) + i) = wrap32 (v + i) := by
  apply BitVec.eq_of_toInt_eq
  rw [sext32, wrap32_toInt, wrap32_toInt, wrap32_toInt, Int.bmod_add_bmod]

theorem wrap32_wrap32_sub (v i : Int) : wrap32 (sext32 (wrap32 v) - i) = wrap32 (v - i) := by
  apply BitVec.eq_of_toInt_eq
  rw [sext32, wrap32_toInt, wrap32_toInt, wrap32_toInt, Int.bmod_sub_bmod]

/-- A register's own value is wrapped to itself. -/
theorem wrap32_sext32 (f : FreqWord) : wrap32 (sext32 f) = f := BitVec.ofInt_toInt

theorem trunc20_zext20 (i : IncWord) : trunc20 (zext20 i) = i := by
  rw [trunc20, zext20, BitVec.ofNat_toNat, BitVec.setWidth_eq]

/-! ### cycles and bounces -/

/-- With B low, a rise of A steps the shared registers up (R161). -/
theorem exec_chaHigh_counts (s : State) (f : FreqWord) (i : IncWord) (a : Bool) :
    exec .chaHigh (s.withShared ⟨f, i, a, false⟩) =
      .next (s.withShared ⟨wrap32 (sext32 f + (zext20 i : Int)), i, true, false⟩) := rfl

/-- With B high, a rise of A sets its latch only (R161). -/
theorem exec_chaHigh_held (s : State) (f : FreqWord) (i : IncWord) (a : Bool) :
    exec .chaHigh (s.withShared ⟨f, i, a, true⟩) = .next (s.withShared ⟨f, i, true, true⟩) := rfl

/-- With A low, a rise of B steps the shared registers down (R163). -/
theorem exec_chbHigh_counts (s : State) (f : FreqWord) (i : IncWord) (b : Bool) :
    exec .chbHigh (s.withShared ⟨f, i, false, b⟩) =
      .next (s.withShared ⟨wrap32 (sext32 f - (zext20 i : Int)), i, false, true⟩) := rfl

/-- With A high, a rise of B sets its latch only (R163). -/
theorem exec_chbHigh_held (s : State) (f : FreqWord) (i : IncWord) (b : Bool) :
    exec .chbHigh (s.withShared ⟨f, i, true, b⟩) = .next (s.withShared ⟨f, i, true, true⟩) := rfl

theorem exec_chaLow_shared (s : State) (f : FreqWord) (i : IncWord) (a b : Bool) :
    exec .chaLow (s.withShared ⟨f, i, a, b⟩) = .next (s.withShared ⟨f, i, false, b⟩) := rfl

theorem exec_chbLow_shared (s : State) (f : FreqWord) (i : IncWord) (a b : Bool) :
    exec .chbLow (s.withShared ⟨f, i, a, b⟩) = .next (s.withShared ⟨f, i, a, false⟩) := rfl

/-- With both latches low, other contents of `FREQ` alone leave the latches as they were. -/
theorem State.withShared_freq {s : State} (ha : s.latchA = false) (hb : s.latchB = false) (f : FreqWord) :
    s.withShared ⟨f, s.inc, false, false⟩ = { s with freq := f } := by
  simp only [State.withShared, ← ha, hb]

/-- With both latches low, the state is its own shared registers and the rest. -/
theorem State.withShared_self {s : State} (ha : s.latchA = false) (hb : s.latchB = false) :
    s.withShared ⟨s.freq, s.inc, false, false⟩ = s := State.withShared_freq ha hb s.freq

/-- A clockwise cycle steps up once: B rises and A falls without a count. -/
theorem execAll_clockwise (s : State) (f : FreqWord) (i : IncWord) :
    execAll clockwise (s.withShared ⟨f, i, false, false⟩) =
      .next (s.withShared ⟨wrap32 (sext32 f + (zext20 i : Int)), i, false, false⟩) := by
  simp only [clockwise, execAll_cons, execAll_nil, andThen_next, exec_chaHigh_counts, exec_chbHigh_held,
    exec_chaLow_shared, exec_chbLow_shared]

/-- A counter-clockwise cycle steps down once: A rises and B falls without a count. -/
theorem execAll_counterClockwise (s : State) (f : FreqWord) (i : IncWord) :
    execAll counterClockwise (s.withShared ⟨f, i, false, false⟩) =
      .next (s.withShared ⟨wrap32 (sext32 f - (zext20 i : Int)), i, false, false⟩) := by
  simp only [counterClockwise, execAll_cons, execAll_nil, andThen_next, exec_chbHigh_counts, exec_chaHigh_held,
    exec_chaLow_shared, exec_chbLow_shared]

/-- Settles O18: the leading channel's rise counts, the other's does not, and the falls clear both latches. -/
theorem cleanRotationMovesOneStep : Obligations.CleanRotationMovesOneStep := by
  intro s ha hb
  have hup := execAll_clockwise s s.freq s.inc
  have hdown := execAll_counterClockwise s s.freq s.inc
  rw [State.withShared_self ha hb, State.withShared_freq ha hb] at hup hdown
  exact ⟨⟨_, hup, s.freqUp_toInt, rfl⟩, ⟨_, hdown, s.freqDown_toInt, rfl⟩⟩

/-- Settles O19: with B low each rise of A counts; in (c) the bounce of B counts back what the rise of A counted. -/
theorem bounceMiscounts : Obligations.BounceMiscounts := by
  intro s ha hb
  have hself := State.withShared_self ha hb
  refine ⟨⟨s.withShared ⟨wrap32 (s.freqValue + s.incValue + s.incValue), s.inc, true, false⟩, ?twice, ?sum, ?frame⟩,
    ⟨{ s with freq := s.freqUp }, ?once, s.freqUp_toInt, rfl⟩, ?nothing⟩
  case twice =>
    conv_lhs => rw [← hself]
    simp only [execAll_cons, execAll_nil, andThen_next, exec_chaHigh_counts, exec_chaLow_shared, wrap32_wrap32_add]
    rfl
  case sum =>
    rw [two_mul, ← add_assoc]
    exact wrap32_toInt _
  case frame => simp only [State.withShared, hb]
  case once =>
    conv_lhs => rw [← hself]
    simp only [execAll_cons, execAll_nil, andThen_next, exec_chaHigh_counts, exec_chaLow_shared]
    exact congrArg _ (State.withShared_freq ha hb _)
  case nothing =>
    conv_lhs => rw [← hself]
    simp only [execAll_cons, execAll_nil, andThen_next, exec_chaHigh_counts, exec_chbHigh_held, exec_chaLow_shared,
      exec_chbLow_shared, exec_chbHigh_counts, wrap32_wrap32_sub, add_sub_cancel_right, wrap32_sext32]
    exact congrArg _ hself

/-! ### presses of the button -/

/-- The state after `n` presses holds the step size divided and wrapped `n` times (R181). -/
theorem execAll_presses (n : Nat) : ∀ s : State, execAll (List.replicate n .btnPress) s =
    .next { s with inc := trunc20 (nextIncrement^[n] s.incValue) } := by
  induction n with
  | zero =>
    intro s
    rw [Function.iterate_zero, id, State.incValue, trunc20_zext20]
    rfl
  | succ n ih =>
    intro s
    rw [List.replicate_succ, execAll_cons, exec_btnPress, andThen_next, ih]
    have hinc : State.incValue { s with inc := trunc20 (nextIncrement s.incValue) } = nextIncrement s.incValue :=
      s.trunc20_nextIncrement_toNat
    rw [hinc, Function.iterate_succ_apply]

/-- Seven divisions return a decade value to itself, and no smaller positive number of them does (R182). -/
theorem nextIncrement_period {i : Nat} (hi : i ∈ decades) :
    nextIncrement^[7] i = i ∧ ∀ n, n < 7 → 0 < n → nextIncrement^[n] i ≠ i := by
  revert i
  decide

theorem iterate_nextIncrement_mem_decades {i : Nat} (hi : i ∈ decades) : ∀ n, nextIncrement^[n] i ∈ decades
  | 0 => hi
  | n + 1 => by
    rw [Function.iterate_succ_apply']
    exact nextIncrement_mem_decades (iterate_nextIncrement_mem_decades hi n)

/-- A decade value fits the 20 bits of `INC` (R22). -/
theorem zext20_trunc20_of_decade {i : Nat} (hi : i ∈ decades) : (trunc20 i).toNat = i := by
  have hle : ∀ j ∈ decades, j < 1048576 := by decide
  exact zext20_trunc20 (hle i hi)

/-- Settles O20: `n` presses divide `n` times, and the period is that of `nextIncrement` on the decade values. -/
theorem stepSizeHasPeriodSeven : Obligations.StepSizeHasPeriodSeven := by
  intro s hs
  obtain ⟨hperiod, hshorter⟩ := nextIncrement_period hs
  refine ⟨?_, fun n hpos hlt h => hshorter n hlt hpos ?_⟩
  · rw [execAll_presses, State.incValue, zext20, hperiod]
    exact congrArg (fun i => Host.Outcome.next { s with inc := i }) (trunc20_zext20 s.inc)
  · rw [execAll_presses] at h
    have hinc : trunc20 (nextIncrement^[n] s.inc.toNat) = s.inc := congrArg State.inc (Host.Outcome.next.inj h)
    rw [← zext20_trunc20_of_decade (iterate_nextIncrement_mem_decades hs n), hinc]

/-! ### the decoder over unbounded integers -/

/-- `FREQ` stays at least `m` steps of 1,000,000 away from both ends of its 32 bits, and the step size is at most that
(R169). -/
structure DecoderRoom (s : State) (m : Nat) : Prop where
  low : -2147483648 + 1000000 * (m : Int) ≤ s.freq.toInt
  high : s.freq.toInt + 1000000 * (m : Int) ≤ 2147483647
  inc : s.inc.toNat ≤ 1000000

/-- With room for one step an event does what it does over the integers, and takes up that room. -/
theorem exec_event_intDecoder {e : Instr} {s : State} {m : Nat} (he : e.agent = .eventUnit)
    (hroom : DecoderRoom s (m + 1)) :
    ∃ t, exec e s = .next t ∧ t.intDecoder = s.intDecoder.perform e ∧ DecoderRoom t m := by
  obtain ⟨hlow, hhigh, hinc⟩ := hroom
  have hup : s.freqUp.toInt = s.freq.toInt + (s.inc.toNat : Int) := sext32_wrap32 (v := s.freqValue + s.incValue)
    (by simp only [State.freqValue, sext32, State.incValue, zext20]; omega)
  have hdown : s.freqDown.toInt = s.freq.toInt - (s.inc.toNat : Int) := sext32_wrap32 (v := s.freqValue - s.incValue)
    (by simp only [State.freqValue, sext32, State.incValue, zext20]; omega)
  cases e with
  | chaLow | chbLow => exact ⟨_, rfl, rfl, by simp; omega, by simp; omega, hinc⟩
  | chaHigh =>
    cases hb : s.latchB with
    | true =>
      exact ⟨_, exec_chaHigh_of_latchB hb, by simp [State.intDecoder, IntDecoder.perform, hb], by simp; omega,
        by simp; omega, hinc⟩
    | false =>
      exact ⟨_, exec_chaHigh_of_not_latchB hb, by simp [State.intDecoder, IntDecoder.perform, hb, hup],
        by simp [hup]; omega, by simp [hup]; omega, hinc⟩
  | chbHigh =>
    cases ha : s.latchA with
    | true =>
      exact ⟨_, exec_chbHigh_of_latchA ha, by simp [State.intDecoder, IntDecoder.perform, ha], by simp; omega,
        by simp; omega, hinc⟩
    | false =>
      exact ⟨_, exec_chbHigh_of_not_latchA ha, by simp [State.intDecoder, IntDecoder.perform, ha, hdown],
        by simp [hdown]; omega, by simp [hdown]; omega, hinc⟩
  | btnPress =>
    have hnext := s.trunc20_nextIncrement_toNat
    refine ⟨_, exec_btnPress s, ?_, by simp; omega, by simp; omega, ?_⟩
    · simp only [State.intDecoder, IntDecoder.perform, hnext]
      rfl
    · exact hnext.trans_le (nextIncrement_le s.incValue_le)
  | _ => cases he

/-- With room for all of them, events do what they do over the integers. -/
theorem execAll_intDecoder : ∀ (es : List Instr) (s : State), (∀ e ∈ es, e.agent = .eventUnit) →
    DecoderRoom s es.length → ∃ t, execAll es s = .next t ∧ t.intDecoder = es.foldl IntDecoder.perform s.intDecoder
  | [], s, _, _ => ⟨s, rfl, rfl⟩
  | e :: es, s, hes, hroom => by
    obtain ⟨he, hes⟩ := List.forall_mem_cons.mp hes
    obtain ⟨u, hu, hdec, hroom⟩ := exec_event_intDecoder he hroom
    obtain ⟨t, ht, hend⟩ := execAll_intDecoder es u hes hroom
    exact ⟨t, by rw [execAll_cons, hu, andThen_next, ht], by rw [hend, hdec, List.foldl_cons]⟩

/-- Settles O21: a legal frequency has room for 2115 steps of the largest step size. -/
theorem decoderAgreesWithUnboundedIntegers : Obligations.DecoderAgreesWithUnboundedIntegers :=
  fun es s hes hlen hlow hhigh hinc => execAll_intDecoder es s hes ⟨by omega, by omega, hinc⟩

end Sys2Proof.Machine
end

section
/-! PROOFS. The front-end (R41, R47, R215): the events of a sample, and that one sample is its events offered one after
another. -/

namespace Sys2Proof.Machine

/-- The events of a sample in this hardware's order (R41). -/
theorem sampleEvents_eventOrder (before now : InputPins) : sampleEvents Config.eventOrder before now =
    sourceEvents before now .channelA ++ sourceEvents before now .channelB ++ sourceEvents before now .button := by
  simp [sampleEvents, Config.eventOrder]

/-- A channel issues an event on a change only, by its new level (R41). -/
theorem sourceEvents_channelA (p n : InputPins) : sourceEvents p n .channelA =
    if n.encA = p.encA then [] else [if n.encA then Instr.chaHigh else .chaLow] := by
  simp only [sourceEvents]
  cases n.encA <;> cases p.encA <;> rfl

theorem sourceEvents_channelB (p n : InputPins) : sourceEvents p n .channelB =
    if n.encB = p.encB then [] else [if n.encB then Instr.chbHigh else .chbLow] := by
  simp only [sourceEvents]
  cases n.encB <;> cases p.encB <;> rfl

/-- The button issues its event on its fall only (R41). -/
theorem sourceEvents_button (p n : InputPins) : sourceEvents p n .button =
    if p.btnN = true ∧ n.btnN = false then [Instr.btnPress] else [] := by
  simp only [sourceEvents]
  cases n.btnN <;> cases p.btnN <;> rfl

/-- Where the position is legal, a sample offered is taken on the state it was offered in. -/
theorem step_offer_sample {s : State} (hl : s.seq.legal = true) (l : InputPins) :
    step (s.offer (.sample l)) = samplePins l s :=
  step_sample hl rfl

/-- An event operation leaves the sample registers (R36). -/
theorem exec_event_previousLevels {e : Instr} {s t : State} (he : e.agent = .eventUnit) (h : exec e s = .next t) :
    t.previousLevels = s.previousLevels := by
  obtain ⟨g, hg⟩ := exec_event he
  cases (hg s).symm.trans h
  rfl

/-- Settles O24: the events source by source; afterwards no event has touched the sample registers. -/
theorem sampleIssuesTheChanges : Obligations.SampleIssuesTheChanges := by
  refine ⟨fun p n => ?events, fun s l hl => ?registers⟩
  case events => rw [sampleEvents_eventOrder, sourceEvents_channelA, sourceEvents_channelB, sourceEvents_button]
  case registers =>
    obtain ⟨t, ht⟩ := execAll_completes (sampleEvents Config.eventOrder s.previousLevels l) (s.setPrevious l)
    refine ⟨t, (step_offer_sample hl l).trans ht, ?_⟩
    exact execAll_keeps (P := fun a => a.previousLevels = l) _ _ t
      (fun e he a b ha hb => (exec_event_previousLevels (sampleEvents_agent _ _ _ e he) hb).trans ha) rfl ht

/-- Events performed one after another are their codes offered one after another. -/
theorem execAll_eq_eventTokens : ∀ (es : List Instr) (evs : List EventCode) (s : State), s.seq.legal = true →
    es.map encode = evs.map Code.event → execAll es s = eventTokens evs s
  | [], [], _, _, _ => rfl
  | [], _ :: _, _, _, h => nomatch h
  | _ :: _, [], _, _, h => nomatch h
  | e :: es, ev :: evs, s, hl, h => by
    obtain ⟨hcode, hcodes⟩ := List.cons.inj h
    have hwf : e.wellFormed = true := wellFormed_of_not_frame (by simp [hcode])
    have hd : decode (.event ev) = .op e := hcode ▸ encodedOperationDecodesBack e hwf
    obtain ⟨u, hu⟩ := everyOperationCompletes e s
    have hlegal : u.seq.legal = true := by
      rw [(Aside.event (agent_of_decode hd) hu).seq]
      exact hl
    rw [execAll_cons, hu, andThen_next, eventTokens, eventToken, step_offer_event hl, runCode_of_op s hd, hu,
      andThen_next, execAll_eq_eventTokens es evs u hlegal hcodes]

/-- Settles O25: the sample performs its events with the sample registers already written. -/
theorem sampleEqualsItsEventsOffered : Obligations.SampleEqualsItsEventsOffered :=
  fun s l evs hl h => (step_offer_sample hl l).trans (execAll_eq_eventTokens _ evs (s.setPrevious l) hl h)

/-- Settles O26: the first of the two rises finds the other latch low and counts, the second does not. -/
theorem simultaneousRisesFollowTheOrder : Obligations.SimultaneousRisesFollowTheOrder := by
  intro s ha hb haPrev hbPrev
  have hself := State.withShared_self (s := s.setPrevious ⟨true, true, s.btnPrev⟩) ha hb
  have hA : sourceEvents s.previousLevels ⟨true, true, s.btnPrev⟩ .channelA = [.chaHigh] := by
    simp [sourceEvents_channelA, State.previousLevels, haPrev]
  have hB : sourceEvents s.previousLevels ⟨true, true, s.btnPrev⟩ .channelB = [.chbHigh] := by
    simp [sourceEvents_channelB, State.previousLevels, hbPrev]
  have hbutton : sourceEvents s.previousLevels ⟨true, true, s.btnPrev⟩ .button = [] := by
    simp [sourceEvents_button, State.previousLevels]
  have hAB : sampleEvents Config.eventOrder s.previousLevels ⟨true, true, s.btnPrev⟩ = [.chaHigh, .chbHigh] := by
    rw [sampleEvents_eventOrder, hA, hB, hbutton]
    rfl
  have hBA : sampleEvents [.channelB, .channelA, .button] s.previousLevels ⟨true, true, s.btnPrev⟩ =
      [.chbHigh, .chaHigh] := by
    simp only [sampleEvents, List.flatMap_cons, List.flatMap_nil, hA, hB, hbutton]
    rfl
  refine ⟨⟨{ s with freq := s.freqUp, latchA := true, latchB := true, aPrev := true, bPrev := true }, ?ab,
      s.freqUp_toInt, rfl⟩,
    ⟨{ s with freq := s.freqDown, latchA := true, latchB := true, aPrev := true, bPrev := true }, ?ba,
      s.freqDown_toInt, rfl⟩⟩
  case ab =>
    rw [samplePins, sampleIn, hAB, ← hself]
    simp only [execAll_cons, execAll_nil, andThen_next, exec_chaHigh_counts, exec_chbHigh_held]
    rfl
  case ba =>
    rw [sampleIn, hBA, ← hself]
    simp only [execAll_cons, execAll_nil, andThen_next, exec_chbHigh_counts, exec_chaHigh_held]
    rfl

end Sys2Proof.Machine
end

section
/-! PROOFS. The codec (R111 to R117): the exact quotient behind the tuning word, its round trip and its slope, and the
two functions evaluated on their own. -/

namespace Sys2Proof.Machine

/-! ### `ENCODE` and `DECODE` on their own -/

/-- Inside the legal range `ENCODE` records its answer and draws nothing (R111). -/
theorem exec_encode_of_legal {f : Int} (s : State) (h : LegalFrequency f) :
    exec (.encode f) s =
      .next { s with codec := .encoded (tuningWord f.toNat) (frameOf (tuningWord f.toNat)) } := by
  simp only [exec, execEncode, encodeWord_of_legal _ h, if_pos h]

/-- Outside the legal range `ENCODE` records the draw and counts it (R114). -/
theorem exec_encode_of_not_legal {f : Int} (s : State) (h : ¬ LegalFrequency f) :
    exec (.encode f) s =
      .next { s with
        codec := .encoded (Config.freeTuningWord s.draws) (frameOf (Config.freeTuningWord s.draws))
        draws := s.draws + 1 } := by
  simp only [exec, execEncode, encodeWord_of_not_legal _ h, if_neg h]

/-- Settles O37: the word of the natural number that a legal frequency is. -/
theorem encodeAnswersWordAndFrame : Obligations.EncodeAnswersWordAndFrame := by
  intro f s h0 hmax
  refine ⟨tuningWord f.toNat, ?_, exec_encode_of_legal s ⟨h0, hmax⟩⟩
  obtain ⟨n, rfl⟩ := Int.eq_ofNat_of_zero_le h0
  rw [Int.toNat_natCast, tuningWord_toNat (by omega)]
  push_cast
  norm_num

/-- Settles O38: the word is the draw. -/
theorem encodeOutsideRangeKeepsControlByte : Obligations.EncodeOutsideRangeKeepsControlByte :=
  fun f s h => ⟨Config.freeTuningWord s.draws, exec_encode_of_not_legal s fun ⟨h0, hmax⟩ => by
    simp only [Config.minVal, Config.maxVal] at h0 hmax
    omega⟩

/-- `DECODE` as a quotient of rationals (R115). -/
theorem decodeHz_eq_div (w : TuningWord) : decodeHz w = (w.toNat : Rat) * 125000000 / 2 ^ 32 := by
  rw [decodeHz, Rat.mkRat_eq_div, Config.refClk]
  push_cast
  rfl

/-- Settles O39: the quotient times its denominator. -/
theorem decodeAnswersExactRational : Obligations.DecodeAnswersExactRational := by
  intro w s
  refine ⟨decodeHz w, ?_, rfl⟩
  rw [decodeHz_eq_div, div_mul_cancel₀ _ (by norm_num)]

/-! ### the round trip -/

/-- The remainder of the quotient of R111: what the floor loses of `f`, in units of 2^-32 Hz. -/
def codecRemainder (f : Nat) : Nat := f * 4294967296 % 125000000

theorem codecRemainder_lt (f : Nat) : codecRemainder f < 125000000 := Nat.mod_lt _ (by norm_num)

/-- The word and the remainder together are the product of R111. -/
theorem tuningWord_mul_add_remainder {f : Nat} (h : f ≤ 32000000) :
    (tuningWord f).toNat * 125000000 + codecRemainder f = f * 4294967296 := by
  rw [tuningWord_toNat (by omega), codecRemainder]
  exact Nat.div_add_mod' _ _

/-- Decoding a frequency's word loses exactly the remainder (R116). -/
theorem sub_decodeHz_tuningWord {f : Nat} (h : f ≤ 32000000) :
    (f : Rat) - decodeHz (tuningWord f) = (codecRemainder f : Rat) / 2 ^ 32 := by
  have hsum : ((tuningWord f).toNat : Rat) * 125000000 + codecRemainder f = f * 4294967296 := by
    exact_mod_cast tuningWord_mul_add_remainder h
  rw [decodeHz_eq_div]
  field_simp
  linarith

/-- Nothing is lost exactly of the multiples of 1,953,125, the odd part of the reference clock (R116). -/
theorem codecRemainder_eq_zero_iff (f : Nat) : codecRemainder f = 0 ↔ 1953125 ∣ f := by
  have hcoprime : Nat.Coprime 1953125 67108864 := by norm_num
  rw [codecRemainder, ← Nat.dvd_iff_mod_eq_zero, show 4294967296 = 67108864 * 64 by norm_num,
    show 125000000 = 1953125 * 64 by norm_num, ← mul_assoc, Nat.mul_dvd_mul_iff_right (by norm_num)]
  exact ⟨hcoprime.dvd_of_dvd_mul_right, fun h => h.mul_right _⟩

/-- Settles O40: the loss is a remainder over 2^32, below one step and less than 1. -/
theorem codecRoundTripWithinOneStep : Obligations.CodecRoundTripWithinOneStep := by
  intro f hf
  have hloss := sub_decodeHz_tuningWord hf
  have hlt : (codecRemainder f : Rat) < 125000000 := by exact_mod_cast codecRemainder_lt f
  have hnonneg : 0 ≤ (f : Rat) - decodeHz (tuningWord f) := by rw [hloss]; positivity
  have hstep : (f : Rat) - decodeHz (tuningWord f) < 125000000 / 2 ^ 32 := by
    rw [hloss]
    exact div_lt_div_of_pos_right hlt (by norm_num)
  refine ⟨hnonneg, hstep, ?exact, ?ceiling⟩
  case exact =>
    rw [hloss, div_eq_zero_iff, or_iff_left (by norm_num), Nat.cast_eq_zero]
    exact codecRemainder_eq_zero_iff f
  case ceiling =>
    have hone : (125000000 : Rat) / 2 ^ 32 < 1 := by norm_num
    rw [Int.ceil_eq_iff]
    push_cast
    constructor <;> linarith

/-! ### the slope -/

/-- Settles O41: 2^32 over the reference clock lies between 34 and 35, so each Hz moves the floor by one of them. -/
theorem codecIsStrictlyIncreasing : Obligations.CodecIsStrictlyIncreasing := by
  refine ⟨fun f g hfg hg => ?increasing, fun f hf => ?slope, fun f hf => ⟨?bound, fun j hj => ?bits⟩⟩
  case increasing =>
    rw [tuningWord_toNat (by omega), tuningWord_toNat (by omega)]
    omega
  case slope =>
    rw [tuningWord_toNat (by omega), tuningWord_toNat (by omega)]
    omega
  case bound =>
    rw [tuningWord_toNat (by omega)]
    omega
  case bits =>
    have hbound : (tuningWord f).toNat < 2 ^ 31 := by
      rw [tuningWord_toNat (by omega)]
      omega
    have hpow : 2 ^ 31 ≤ 2 ^ j := Nat.pow_le_pow_right (by norm_num) hj
    rw [frameOf_getLsbD, BitVec.getLsbD, Nat.testBit_lt_two_pow (hbound.trans_le hpow), Bool.and_false]

/-! ### the display port -/

/-- Settles O33: a legal frequency is a natural number below 2^25. -/
theorem displayPortCarriesTheFrequency : Obligations.DisplayPortCarriesTheFrequency := by
  intro v h0 hmax
  refine ⟨v.extractLsb' 0 25, rfl, ?_, rfl⟩
  have hnat : (v.toNat : Int) = v.toInt := by
    rw [BitVec.toInt_eq_toNat_cond] at h0 ⊢
    split at h0 <;> omega
  rw [BitVec.extractLsb'_toNat, Nat.shiftRight_zero, Nat.mod_eq_of_lt (by omega), hnat]

end Sys2Proof.Machine
end

section
/-! PROOFS. Operations and values written out (R135, R136, R140 to R145, R48, R240): each statement spells the record
updates that the model's named operations make. -/

namespace Sys2Proof.Machine

/-- Settles O27: `writePin` and `goto` written out for the six operations. -/
theorem startUpOperationsWriteOnePin : Obligations.StartUpOperationsWriteOnePin :=
  fun _ => ⟨rfl, rfl, rfl, rfl, rfl, rfl⟩

/-- Settles O29: `writePin` and `goto` written out for the latch pulse. -/
theorem latchPulseOperations : Obligations.LatchPulseOperations :=
  fun _ => ⟨rfl, rfl⟩

/-- Settles O52, value by value. -/
theorem resetLeavesTheStatedValues : Obligations.ResetLeavesTheStatedValues := by
  refine ⟨by decide, by decide, ?_⟩
  exact ⟨rfl, rfl, rfl, rfl, rfl, rfl, rfl, rfl, rfl, rfl, rfl, rfl, rfl, rfl, rfl, rfl, rfl⟩

/-- Settles O53: reset is performed whatever the position, on the state it was offered in. -/
theorem rstReturnsToReset : Obligations.RstReturnsToReset :=
  fun s l => ⟨s.resetBlock l, rfl, rfl⟩

end Sys2Proof.Machine
end
